-- ==== Sys2Proof/Config.lean ====
section
/-!
DEFINITION. Config: what 00_scope.md R5 to R8 call the parameters of the machine. XLEN and MEMSIZE are carried in the
state (Machine/State.lean), so that a claim about every state holds for every value of theirs. A parameter with a reset
value is an input of a run (Machine/Boot.lean); the definitions here give the values at `State.reset`. A parameter the
spec leaves open, or gives two settings, is an opaque constant, so that nothing can be proved from its value.
-/

namespace Sys2Proof

/-- XLEN (R5): a power of two and at least 32, so 32 doubled some number of times; every such width is one `Xlen`. -/
structure Xlen where
  doublings : Nat
deriving DecidableEq, Repr

/-- n: the bits of a register, the program counter or an address (R5). -/
def Xlen.bits (n : Xlen) : Nat :=
  32 * 2 ^ n.doublings

/-- RB = n / 8, the "register size in bytes" (R5). -/
def Xlen.bytes (n : Xlen) : Nat :=
  n.bits / 8

end Sys2Proof

namespace Sys2Proof.Config

/-- XLEN right after reset: 32, the spec's default instance (R5). UNSAFE, log 1. -/
def resetXlen : Xlen := { doublings := 0 }

/-- MEMSIZE right after reset (R6): the value of the spec's examples. UNSAFE, log 2. -/
def memSize : Nat := 0x10000

/-- RESET_PC (R8): the spec's default. UNSAFE, log 8. -/
def resetPc (n : Xlen) : BitVec n.bits := 0

/-- Every entry of RESET_REGS (R8): the spec's default. UNSAFE, log 8. -/
def resetReg (n : Xlen) : BitVec n.bits := 0

/-- The settings of DIV_OVERFLOW (R8). -/
inductive DivOverflow where
  | fault
  | wrap
deriving DecidableEq, Repr, Inhabited

/-- The settings of NEG_NEGATIVE (R8). -/
inductive NegNegative where
  | copy
  | negate
deriving DecidableEq, Repr, Inhabited

/-- SCID (R7): one constant of the machine with no assumed value, for each XLEN. Safe, log 3. -/
opaque scid {n : Xlen} : BitVec n.bits

/-- SCARRY (R8, R152): the carry of the [signed] additions, a function of the operands and the carry in. Safe, log 4. -/
opaque scarry {n : Xlen} : BitVec n.bits → BitVec n.bits → Bool → Bool

/-- SBORROW (R8, R152): the borrow of the [signed] subtractions. Safe, log 4. -/
opaque sborrow {n : Xlen} : BitVec n.bits → BitVec n.bits → Bool → Bool

/-- DIV_OVERFLOW (R8, R504): what a signed division of the least value by -1 does. Safe, log 5. -/
opaque divOverflow : DivOverflow

/-- NEG_NEGATIVE (R8, R282): what NEG does with a negative source. Safe, log 6. -/
opaque negNegative : NegNegative

/-- FGETC_EOF (R8, R444): what FGETC writes when the device has no byte left. Safe, log 7. -/
opaque fgetcEof {n : Xlen} : BitVec n.bits

end Sys2Proof.Config
end

