-- ==== Sys2Proof/Word.lean ====
section
/-!
DEFINITION. Word: the bit patterns of the machine (00_scope.md R9, R10) and the names of its registers (10_state.md R30).
-/

namespace Sys2Proof

/-- The n-bit pattern a register, the program counter or an address holds (R10, R30, R32). -/
abbrev Word (n : Xlen) : Type := BitVec n.bits

/-- One byte of memory or of a device (20_memory.md R60, 48_halcode.md R432). -/
abbrev Byte : Type := BitVec 8

/-- The 32-bit instruction word W (30_encoding.md R90, R91). -/
abbrev InstrWord : Type := BitVec 32

/-- imm16 = W[15:0] (30_encoding.md R102). -/
abbrev Imm16 : Type := BitVec 16

/-- A register number, REG0 to REG15 (10_state.md R30, 30_encoding.md R101). -/
abbrev Reg : Type := Fin 16

end Sys2Proof
end

