-- ==== Sys2Proof/Syntax.lean ====
section
/-!
DEFINITION. Syntax: the 209 instructions of spec/opcode_table.json, one constructor per row (00_scope.md R3,
30_encoding.md R90 to R100). A constructor's arguments are the row's fields in printed order: the register numbers
a, b, c, d, then the 16-bit immediate. NOP and HALT carry the 24 bits that R109 and R114 say are ignored, so that a
term is exactly one instruction word.
-/

namespace Sys2Proof

/-- One instruction of the listing; `FALSE` and `TRUE` are `setFalse` and `setTrue` (those words are Lean's). -/
inductive Instr where
  -- 0OP: NOP and HALT, with their 24 ignored bits (40_nop_halt.md, 30_encoding.md R92, R109)
  | nop (ignored : BitVec 24)
  | halt (ignored : BitVec 24)
  -- 4OP integer group, opcode byte 0x01 (41_4op_integer.md, 30_encoding.md R93)
  | addCi (a b c d : Reg)
  | addCo (a b c d : Reg)
  | addCio (a b c d : Reg)
  | adduCi (a b c d : Reg)
  | adduCo (a b c d : Reg)
  | adduCio (a b c d : Reg)
  | subBi (a b c d : Reg)
  | subBo (a b c d : Reg)
  | subBio (a b c d : Reg)
  | subuBi (a b c d : Reg)
  | subuBo (a b c d : Reg)
  | subuBio (a b c d : Reg)
  | multiply (a b c d : Reg)
  | multiplyu (a b c d : Reg)
  | divide (a b c d : Reg)
  | divideu (a b c d : Reg)
  | mux (a b c d : Reg)
  | nmux (a b c d : Reg)
  | sort (a b c d : Reg)
  | sortu (a b c d : Reg)
  -- 3OP integer group, opcode byte 0x05 (42_3op_integer_alu.md, 43_3op_integer_mem_jump.md, R94)
  | add (a b c : Reg)
  | addu (a b c : Reg)
  | sub (a b c : Reg)
  | subu (a b c : Reg)
  | cmp (a b c : Reg)
  | cmpu (a b c : Reg)
  | mul (a b c : Reg)
  | mulh (a b c : Reg)
  | mulu (a b c : Reg)
  | muluh (a b c : Reg)
  | div (a b c : Reg)
  | mod (a b c : Reg)
  | divu (a b c : Reg)
  | modu (a b c : Reg)
  | max (a b c : Reg)
  | maxu (a b c : Reg)
  | min (a b c : Reg)
  | minu (a b c : Reg)
  | pack (a b c : Reg)
  | unpack (a b c : Reg)
  | pack8Co (a b c : Reg)
  | pack8uCo (a b c : Reg)
  | pack16Co (a b c : Reg)
  | pack16uCo (a b c : Reg)
  | pack32Co (a b c : Reg)
  | pack32uCo (a b c : Reg)
  | and (a b c : Reg)
  | or (a b c : Reg)
  | xor (a b c : Reg)
  | nand (a b c : Reg)
  | nor (a b c : Reg)
  | xnor (a b c : Reg)
  | mpq (a b c : Reg)
  | lpq (a b c : Reg)
  | cpq (a b c : Reg)
  | bpq (a b c : Reg)
  | sal (a b c : Reg)
  | sar (a b c : Reg)
  | sl0 (a b c : Reg)
  | sr0 (a b c : Reg)
  | sl1 (a b c : Reg)
  | sr1 (a b c : Reg)
  | rol (a b c : Reg)
  | ror (a b c : Reg)
  | loadx (a b c : Reg)
  | loadx8 (a b c : Reg)
  | loadxu8 (a b c : Reg)
  | loadx16 (a b c : Reg)
  | loadxu16 (a b c : Reg)
  | loadx32 (a b c : Reg)
  | loadxu32 (a b c : Reg)
  | storex (a b c : Reg)
  | storex8 (a b c : Reg)
  | storex16 (a b c : Reg)
  | storex32 (a b c : Reg)
  | cmpjumpG (a b c : Reg)
  | cmpjumpGe (a b c : Reg)
  | cmpjumpE (a b c : Reg)
  | cmpjumpNe (a b c : Reg)
  | cmpjumpLe (a b c : Reg)
  | cmpjumpL (a b c : Reg)
  | cmpjumpuG (a b c : Reg)
  | cmpjumpuGe (a b c : Reg)
  | cmpjumpuLe (a b c : Reg)
  | cmpjumpuL (a b c : Reg)
  -- 2OP integer group, opcode byte 0x09 (44_2op_integer.md, R95)
  | neg (a b : Reg)
  | abs (a b : Reg)
  | nabs (a b : Reg)
  | swap (a b : Reg)
  | copy (a b : Reg)
  | move (a b : Reg)
  | not (a b : Reg)
  | branch (a b : Reg)
  | call (a b : Reg)
  | pushr (a b : Reg)
  | push8 (a b : Reg)
  | push16 (a b : Reg)
  | push32 (a b : Reg)
  | popr (a b : Reg)
  | pop8 (a b : Reg)
  | popu8 (a b : Reg)
  | pop16 (a b : Reg)
  | popu16 (a b : Reg)
  | pop32 (a b : Reg)
  | popu32 (a b : Reg)
  | cmpskipG (a b : Reg)
  | cmpskipGe (a b : Reg)
  | cmpskipE (a b : Reg)
  | cmpskipNe (a b : Reg)
  | cmpskipLe (a b : Reg)
  | cmpskipL (a b : Reg)
  | cmpskipuG (a b : Reg)
  | cmpskipuGe (a b : Reg)
  | cmpskipuLe (a b : Reg)
  | cmpskipuL (a b : Reg)
  -- 1OP group, opcode byte 0x0D (45_1op.md, R96)
  | readpc (a : Reg)
  | readscid (a : Reg)
  | setFalse (a : Reg)
  | setTrue (a : Reg)
  | jsrCoroutine (a : Reg)
  | ret (a : Reg)
  | pushpc (a : Reg)
  | poppc (a : Reg)
  -- 2OPI integer groups, opcode bytes 0x0E to 0x23 (46_2opi_integer.md, R97)
  | addi (a b : Reg) (imm : Imm16)
  | addui (a b : Reg) (imm : Imm16)
  | subi (a b : Reg) (imm : Imm16)
  | subui (a b : Reg) (imm : Imm16)
  | cmpi (a b : Reg) (imm : Imm16)
  | load (a b : Reg) (imm : Imm16)
  | load8 (a b : Reg) (imm : Imm16)
  | loadu8 (a b : Reg) (imm : Imm16)
  | load16 (a b : Reg) (imm : Imm16)
  | loadu16 (a b : Reg) (imm : Imm16)
  | load32 (a b : Reg) (imm : Imm16)
  | loadu32 (a b : Reg) (imm : Imm16)
  | cmpui (a b : Reg) (imm : Imm16)
  | store (a b : Reg) (imm : Imm16)
  | store8 (a b : Reg) (imm : Imm16)
  | store16 (a b : Reg) (imm : Imm16)
  | store32 (a b : Reg) (imm : Imm16)
  -- 1OPI groups, opcode bytes 0x2C to 0x2F (47_1opi_0opi.md, R98)
  | jumpC (a : Reg) (imm : Imm16)
  | jumpB (a : Reg) (imm : Imm16)
  | jumpO (a : Reg) (imm : Imm16)
  | jumpG (a : Reg) (imm : Imm16)
  | jumpGe (a : Reg) (imm : Imm16)
  | jumpE (a : Reg) (imm : Imm16)
  | jumpNe (a : Reg) (imm : Imm16)
  | jumpLe (a : Reg) (imm : Imm16)
  | jumpL (a : Reg) (imm : Imm16)
  | jumpZ (a : Reg) (imm : Imm16)
  | jumpNz (a : Reg) (imm : Imm16)
  | jumpP (a : Reg) (imm : Imm16)
  | jumpNp (a : Reg) (imm : Imm16)
  | calli (a : Reg) (imm : Imm16)
  | loadi (a : Reg) (imm : Imm16)
  | loadui (a : Reg) (imm : Imm16)
  | sali (a : Reg) (imm : Imm16)
  | sari (a : Reg) (imm : Imm16)
  | sl0i (a : Reg) (imm : Imm16)
  | sr0i (a : Reg) (imm : Imm16)
  | sl1i (a : Reg) (imm : Imm16)
  | sr1i (a : Reg) (imm : Imm16)
  | loadr (a : Reg) (imm : Imm16)
  | loadr8 (a : Reg) (imm : Imm16)
  | loadru8 (a : Reg) (imm : Imm16)
  | loadr16 (a : Reg) (imm : Imm16)
  | loadru16 (a : Reg) (imm : Imm16)
  | loadr32 (a : Reg) (imm : Imm16)
  | loadru32 (a : Reg) (imm : Imm16)
  | storer (a : Reg) (imm : Imm16)
  | storer8 (a : Reg) (imm : Imm16)
  | storer16 (a : Reg) (imm : Imm16)
  | storer32 (a : Reg) (imm : Imm16)
  -- 0OPI group, opcode bytes 3C 00 (47_1opi_0opi.md, R99)
  | jump (imm : Imm16)
  -- HALCODE group, opcode byte 0x42 (48_halcode.md, R100)
  | fopenRead
  | fopenWrite
  | fclose
  | rewind
  | fseek
  | fgetc
  | fputc
  -- CMPSKIPI group, opcode bytes 0xA0 and 0xA1 (49_high_immediate_groups.md, R460)
  | cmpskipiG (a : Reg) (imm : Imm16)
  | cmpskipiGe (a : Reg) (imm : Imm16)
  | cmpskipiE (a : Reg) (imm : Imm16)
  | cmpskipiNe (a : Reg) (imm : Imm16)
  | cmpskipiLe (a : Reg) (imm : Imm16)
  | cmpskipiL (a : Reg) (imm : Imm16)
  | cmpskipuiG (a : Reg) (imm : Imm16)
  | cmpskipuiGe (a : Reg) (imm : Imm16)
  | cmpskipuiLe (a : Reg) (imm : Imm16)
  | cmpskipuiL (a : Reg) (imm : Imm16)
  -- bit optimization and CMPJUMPI groups, opcode bytes 0xB0 to 0xD5 (49_high_immediate_groups.md, R460)
  | andi (a b : Reg) (imm : Imm16)
  | ori (a b : Reg) (imm : Imm16)
  | xori (a b : Reg) (imm : Imm16)
  | nandi (a b : Reg) (imm : Imm16)
  | nori (a b : Reg) (imm : Imm16)
  | xnori (a b : Reg) (imm : Imm16)
  | cmpjumpiG (a b : Reg) (imm : Imm16)
  | cmpjumpiGe (a b : Reg) (imm : Imm16)
  | cmpjumpiE (a b : Reg) (imm : Imm16)
  | cmpjumpiNe (a b : Reg) (imm : Imm16)
  | cmpjumpiLe (a b : Reg) (imm : Imm16)
  | cmpjumpiL (a b : Reg) (imm : Imm16)
  | cmpjumpuiG (a b : Reg) (imm : Imm16)
  | cmpjumpuiGe (a b : Reg) (imm : Imm16)
  | cmpjumpuiLe (a b : Reg) (imm : Imm16)
  | cmpjumpuiL (a b : Reg) (imm : Imm16)
deriving DecidableEq, Repr

end Sys2Proof
end

