-- ==== Sys2Proof/WellFormed.lean ====
section
/-!
DEFINITION. WellFormed: the encodings software should use. The machine runs every instruction of the listing; these are
the static checks that 70_reset_and_hazards.md R550 allows a checker to make, and the distinct destinations that
10_state.md R37 asks for. Operand ranges need no check: a register is a number below 16 and an immediate 16 bits (R101,
R102), and every value is legal.
-/

namespace Sys2Proof

/-- "Use only `00 00 00 00` as NOP and `FF FF FF FF` as HALT" (R550). -/
def Instr.isProper (i : Instr) : Bool :=
  match i with
  | .nop ignored => ignored == 0
  | .halt ignored => ignored == BitVec.allOnes 24
  | _ => true

/-- The two destinations of an instruction that writes two different results, for the 22 instructions of R37. -/
def Instr.destinations (i : Instr) : Option (Reg × Reg) :=
  match i with
  | .addCo a _ _ d | .addCio a _ _ d | .adduCo a _ _ d | .adduCio a _ _ d => some (a, d)
  | .subBo a _ _ d | .subBio a _ _ d | .subuBo a _ _ d | .subuBio a _ _ d => some (a, d)
  | .multiply a b _ _ | .multiplyu a b _ _ | .divide a b _ _ | .divideu a b _ _ => some (a, b)
  | .sort a b _ _ | .sortu a b _ _ | .move a b => some (a, b)
  | .popr a b | .pop8 a b | .popu8 a b | .pop16 a b | .popu16 a b | .pop32 a b | .popu32 a b => some (a, b)
  | _ => none

/-- No two different results go to one register (R37). -/
def Instr.hasDistinctDestinations (i : Instr) : Bool :=
  match i.destinations with
  | some (p, q) => p != q
  | none => true

/-- The static checks together. -/
def Instr.wellFormed (i : Instr) : Bool :=
  i.isProper && i.hasDistinctDestinations

end Sys2Proof
end

