-- ==== Sys2Proof/Decode.lean ====
section
/-!
DEFINITION. Decode and encode, written from 30_encoding.md R90 to R115 and spec/opcode_table.json. Decoding depends on
the word alone (R104). A field of a word is a number (`slice`), so that a decoder is a match on numbers that the kernel
evaluates. A word that is no instruction is rejected by name.
-/

namespace Sys2Proof

/-- Why bytes are no instruction: an illegal word (R108), a HALCODE word with an undefined callID (R108, R115), or
fewer than the four bytes of a word (R90). -/
inductive DecodeError where
  | illegal (w : InstrWord)
  | invalidHalcode (callId : BitVec 24)
  | truncated
deriving DecidableEq, Repr

/-- The field `w[hi:lo]` as a number (00_scope.md R9). -/
def slice (w : InstrWord) (hi lo : Nat) : Nat :=
  (w.toNat >>> lo) % 2 ^ (hi - lo + 1)

/-- The register number in the nibble whose lowest bit is `lo` (R101). -/
def nibble (w : InstrWord) (lo : Nat) : Reg :=
  Fin.ofNat 16 (slice w (lo + 3) lo)

/-- imm16 = W[15:0] (R102). -/
def immediate (w : InstrWord) : Imm16 :=
  BitVec.ofNat 16 (slice w 15 0)

/-- W[23:0]: the callID of a HALCODE (R100), the ignored bits of NOP and HALT (R109). -/
def low24 (w : InstrWord) : BitVec 24 :=
  BitVec.ofNat 24 (slice w 23 0)

/-- The defined XOP values of the 4OP group; 0x14 to 0xFF are reserved (R106). -/
def decode4OP (xop : Nat) (a b c d : Reg) : Option Instr :=
  match xop with
  | 0x00 => some (.addCi a b c d)
  | 0x01 => some (.addCo a b c d)
  | 0x02 => some (.addCio a b c d)
  | 0x03 => some (.adduCi a b c d)
  | 0x04 => some (.adduCo a b c d)
  | 0x05 => some (.adduCio a b c d)
  | 0x06 => some (.subBi a b c d)
  | 0x07 => some (.subBo a b c d)
  | 0x08 => some (.subBio a b c d)
  | 0x09 => some (.subuBi a b c d)
  | 0x0A => some (.subuBo a b c d)
  | 0x0B => some (.subuBio a b c d)
  | 0x0C => some (.multiply a b c d)
  | 0x0D => some (.multiplyu a b c d)
  | 0x0E => some (.divide a b c d)
  | 0x0F => some (.divideu a b c d)
  | 0x10 => some (.mux a b c d)
  | 0x11 => some (.nmux a b c d)
  | 0x12 => some (.sort a b c d)
  | 0x13 => some (.sortu a b c d)
  | _ => none

/-- The defined XOP values of the 3OP group; the gaps are the reserved values of R106. -/
def decode3OP (xop : Nat) (a b c : Reg) : Option Instr :=
  match xop with
  | 0x000 => some (.add a b c)
  | 0x001 => some (.addu a b c)
  | 0x002 => some (.sub a b c)
  | 0x003 => some (.subu a b c)
  | 0x004 => some (.cmp a b c)
  | 0x005 => some (.cmpu a b c)
  | 0x006 => some (.mul a b c)
  | 0x007 => some (.mulh a b c)
  | 0x008 => some (.mulu a b c)
  | 0x009 => some (.muluh a b c)
  | 0x00A => some (.div a b c)
  | 0x00B => some (.mod a b c)
  | 0x00C => some (.divu a b c)
  | 0x00D => some (.modu a b c)
  | 0x010 => some (.max a b c)
  | 0x011 => some (.maxu a b c)
  | 0x012 => some (.min a b c)
  | 0x013 => some (.minu a b c)
  | 0x014 => some (.pack a b c)
  | 0x015 => some (.unpack a b c)
  | 0x016 => some (.pack8Co a b c)
  | 0x017 => some (.pack8uCo a b c)
  | 0x018 => some (.pack16Co a b c)
  | 0x019 => some (.pack16uCo a b c)
  | 0x01A => some (.pack32Co a b c)
  | 0x01B => some (.pack32uCo a b c)
  | 0x020 => some (.and a b c)
  | 0x021 => some (.or a b c)
  | 0x022 => some (.xor a b c)
  | 0x023 => some (.nand a b c)
  | 0x024 => some (.nor a b c)
  | 0x025 => some (.xnor a b c)
  | 0x026 => some (.mpq a b c)
  | 0x027 => some (.lpq a b c)
  | 0x028 => some (.cpq a b c)
  | 0x029 => some (.bpq a b c)
  | 0x030 => some (.sal a b c)
  | 0x031 => some (.sar a b c)
  | 0x032 => some (.sl0 a b c)
  | 0x033 => some (.sr0 a b c)
  | 0x034 => some (.sl1 a b c)
  | 0x035 => some (.sr1 a b c)
  | 0x036 => some (.rol a b c)
  | 0x037 => some (.ror a b c)
  | 0x038 => some (.loadx a b c)
  | 0x039 => some (.loadx8 a b c)
  | 0x03A => some (.loadxu8 a b c)
  | 0x03B => some (.loadx16 a b c)
  | 0x03C => some (.loadxu16 a b c)
  | 0x03D => some (.loadx32 a b c)
  | 0x03E => some (.loadxu32 a b c)
  | 0x048 => some (.storex a b c)
  | 0x049 => some (.storex8 a b c)
  | 0x04A => some (.storex16 a b c)
  | 0x04B => some (.storex32 a b c)
  | 0x050 => some (.cmpjumpG a b c)
  | 0x051 => some (.cmpjumpGe a b c)
  | 0x052 => some (.cmpjumpE a b c)
  | 0x053 => some (.cmpjumpNe a b c)
  | 0x054 => some (.cmpjumpLe a b c)
  | 0x055 => some (.cmpjumpL a b c)
  | 0x060 => some (.cmpjumpuG a b c)
  | 0x061 => some (.cmpjumpuGe a b c)
  | 0x064 => some (.cmpjumpuLe a b c)
  | 0x065 => some (.cmpjumpuL a b c)
  | _ => none

/-- The defined XOP values of the 2OP group; the gaps are the reserved values of R106 and the unlisted ones of R107. -/
def decode2OP (xop : Nat) (a b : Reg) : Option Instr :=
  match xop with
  | 0x0000 => some (.neg a b)
  | 0x0001 => some (.abs a b)
  | 0x0002 => some (.nabs a b)
  | 0x0003 => some (.swap a b)
  | 0x0004 => some (.copy a b)
  | 0x0005 => some (.move a b)
  | 0x0006 => some (.not a b)
  | 0x0100 => some (.branch a b)
  | 0x0101 => some (.call a b)
  | 0x0200 => some (.pushr a b)
  | 0x0201 => some (.push8 a b)
  | 0x0202 => some (.push16 a b)
  | 0x0203 => some (.push32 a b)
  | 0x0280 => some (.popr a b)
  | 0x0281 => some (.pop8 a b)
  | 0x0282 => some (.popu8 a b)
  | 0x0283 => some (.pop16 a b)
  | 0x0284 => some (.popu16 a b)
  | 0x0285 => some (.pop32 a b)
  | 0x0286 => some (.popu32 a b)
  | 0x0300 => some (.cmpskipG a b)
  | 0x0301 => some (.cmpskipGe a b)
  | 0x0302 => some (.cmpskipE a b)
  | 0x0303 => some (.cmpskipNe a b)
  | 0x0304 => some (.cmpskipLe a b)
  | 0x0305 => some (.cmpskipL a b)
  | 0x0380 => some (.cmpskipuG a b)
  | 0x0381 => some (.cmpskipuGe a b)
  | 0x0384 => some (.cmpskipuLe a b)
  | 0x0385 => some (.cmpskipuL a b)
  | _ => none

/-- The defined XOP values of the 1OP group (R106). -/
def decode1OP (xop : Nat) (a : Reg) : Option Instr :=
  match xop with
  | 0x00000 => some (.readpc a)
  | 0x00001 => some (.readscid a)
  | 0x00002 => some (.setFalse a)
  | 0x00003 => some (.setTrue a)
  | 0x01000 => some (.jsrCoroutine a)
  | 0x01001 => some (.ret a)
  | 0x02000 => some (.pushpc a)
  | 0x02001 => some (.poppc a)
  | _ => none

/-- The defined XOP digits under opcode byte 0x2C, conditional jumps (R105, R106). -/
def decodeJumpIf (xop : Nat) (a : Reg) (imm : Imm16) : Option Instr :=
  match xop with
  | 0x0 => some (.jumpC a imm)
  | 0x1 => some (.jumpB a imm)
  | 0x2 => some (.jumpO a imm)
  | 0x3 => some (.jumpG a imm)
  | 0x4 => some (.jumpGe a imm)
  | 0x5 => some (.jumpE a imm)
  | 0x6 => some (.jumpNe a imm)
  | 0x7 => some (.jumpLe a imm)
  | 0x8 => some (.jumpL a imm)
  | 0x9 => some (.jumpZ a imm)
  | 0xA => some (.jumpNz a imm)
  | 0xB => some (.jumpP a imm)
  | 0xC => some (.jumpNp a imm)
  | _ => none

/-- The defined XOP digits under opcode byte 0x2D, CALLI, LOADI, LOADUI and the shift immediates (R105, R106). -/
def decodeBranchImm (xop : Nat) (a : Reg) (imm : Imm16) : Option Instr :=
  match xop with
  | 0x0 => some (.calli a imm)
  | 0x1 => some (.loadi a imm)
  | 0x2 => some (.loadui a imm)
  | 0x3 => some (.sali a imm)
  | 0x4 => some (.sari a imm)
  | 0x5 => some (.sl0i a imm)
  | 0x6 => some (.sr0i a imm)
  | 0x7 => some (.sl1i a imm)
  | 0x8 => some (.sr1i a imm)
  | _ => none

/-- The defined XOP digits under opcode byte 0x2E, relative loads (R105, R106). -/
def decodeLoadRel (xop : Nat) (a : Reg) (imm : Imm16) : Option Instr :=
  match xop with
  | 0x0 => some (.loadr a imm)
  | 0x1 => some (.loadr8 a imm)
  | 0x2 => some (.loadru8 a imm)
  | 0x3 => some (.loadr16 a imm)
  | 0x4 => some (.loadru16 a imm)
  | 0x5 => some (.loadr32 a imm)
  | 0x6 => some (.loadru32 a imm)
  | _ => none

/-- The defined XOP digits under opcode byte 0x2F, relative stores (R105, R106). -/
def decodeStoreRel (xop : Nat) (a : Reg) (imm : Imm16) : Option Instr :=
  match xop with
  | 0x0 => some (.storer a imm)
  | 0x1 => some (.storer8 a imm)
  | 0x2 => some (.storer16 a imm)
  | 0x3 => some (.storer32 a imm)
  | _ => none

/-- The defined XOP digits under opcode byte 0xA0, CMPSKIPI (R105, R106). -/
def decodeSkipSigned (xop : Nat) (a : Reg) (imm : Imm16) : Option Instr :=
  match xop with
  | 0x0 => some (.cmpskipiG a imm)
  | 0x1 => some (.cmpskipiGe a imm)
  | 0x2 => some (.cmpskipiE a imm)
  | 0x3 => some (.cmpskipiNe a imm)
  | 0x4 => some (.cmpskipiLe a imm)
  | 0x5 => some (.cmpskipiL a imm)
  | _ => none

/-- The defined XOP digits under opcode byte 0xA1, CMPSKIPUI (R105, R106). -/
def decodeSkipUnsigned (xop : Nat) (a : Reg) (imm : Imm16) : Option Instr :=
  match xop with
  | 0x0 => some (.cmpskipuiG a imm)
  | 0x1 => some (.cmpskipuiGe a imm)
  | 0x4 => some (.cmpskipuiLe a imm)
  | 0x5 => some (.cmpskipuiL a imm)
  | _ => none

/-- The 2OPI instructions, which the opcode byte alone selects (R97, R105); every other opcode byte is illegal. -/
def decode2OPI (opcode : Nat) (a b : Reg) (imm : Imm16) : Option Instr :=
  match opcode with
  | 0x0E => some (.addi a b imm)
  | 0x0F => some (.addui a b imm)
  | 0x10 => some (.subi a b imm)
  | 0x11 => some (.subui a b imm)
  | 0x12 => some (.cmpi a b imm)
  | 0x13 => some (.load a b imm)
  | 0x14 => some (.load8 a b imm)
  | 0x15 => some (.loadu8 a b imm)
  | 0x16 => some (.load16 a b imm)
  | 0x17 => some (.loadu16 a b imm)
  | 0x18 => some (.load32 a b imm)
  | 0x19 => some (.loadu32 a b imm)
  | 0x1F => some (.cmpui a b imm)
  | 0x20 => some (.store a b imm)
  | 0x21 => some (.store8 a b imm)
  | 0x22 => some (.store16 a b imm)
  | 0x23 => some (.store32 a b imm)
  | 0xB0 => some (.andi a b imm)
  | 0xB1 => some (.ori a b imm)
  | 0xB2 => some (.xori a b imm)
  | 0xB3 => some (.nandi a b imm)
  | 0xB4 => some (.nori a b imm)
  | 0xB5 => some (.xnori a b imm)
  | 0xC0 => some (.cmpjumpiG a b imm)
  | 0xC1 => some (.cmpjumpiGe a b imm)
  | 0xC2 => some (.cmpjumpiE a b imm)
  | 0xC3 => some (.cmpjumpiNe a b imm)
  | 0xC4 => some (.cmpjumpiLe a b imm)
  | 0xC5 => some (.cmpjumpiL a b imm)
  | 0xD0 => some (.cmpjumpuiG a b imm)
  | 0xD1 => some (.cmpjumpuiGe a b imm)
  | 0xD4 => some (.cmpjumpuiLe a b imm)
  | 0xD5 => some (.cmpjumpuiL a b imm)
  | _ => none

/-- The seven defined callIDs (R115). -/
def decodeHalcode (callId : Nat) : Option Instr :=
  match callId with
  | 0x100000 => some .fopenRead
  | 0x100001 => some .fopenWrite
  | 0x100002 => some .fclose
  | 0x100003 => some .rewind
  | 0x100004 => some .fseek
  | 0x100100 => some .fgetc
  | 0x100200 => some .fputc
  | _ => none

/-- The row of the listing a word is, or none: the opcode byte chooses the format, the format's XOP the row (R104, R105). -/
def decodeRow (w : InstrWord) : Option Instr :=
  match slice w 31 24 with
  | 0x00 => some (.nop (low24 w))
  | 0x01 => decode4OP (slice w 23 16) (nibble w 12) (nibble w 8) (nibble w 4) (nibble w 0)
  | 0x05 => decode3OP (slice w 23 12) (nibble w 8) (nibble w 4) (nibble w 0)
  | 0x09 => decode2OP (slice w 23 8) (nibble w 4) (nibble w 0)
  | 0x0D => decode1OP (slice w 23 4) (nibble w 0)
  | 0x2C => decodeJumpIf (slice w 23 20) (nibble w 16) (immediate w)
  | 0x2D => decodeBranchImm (slice w 23 20) (nibble w 16) (immediate w)
  | 0x2E => decodeLoadRel (slice w 23 20) (nibble w 16) (immediate w)
  | 0x2F => decodeStoreRel (slice w 23 20) (nibble w 16) (immediate w)
  | 0x3C => if slice w 23 16 = 0 then some (.jump (immediate w)) else none
  | 0x42 => decodeHalcode (slice w 23 0)
  | 0xA0 => decodeSkipSigned (slice w 23 20) (nibble w 16) (immediate w)
  | 0xA1 => decodeSkipUnsigned (slice w 23 20) (nibble w 16) (immediate w)
  | 0xFF => some (.halt (low24 w))
  | opcode => decode2OPI opcode (nibble w 20) (nibble w 16) (immediate w)

/-- What a word that is no row is rejected as: InvalidHalcode under first byte 0x42, illegal otherwise (R108). -/
def rejection (w : InstrWord) : DecodeError :=
  if slice w 31 24 = 0x42 then .invalidHalcode (low24 w) else .illegal w

/-- The decoder: total on words (R104, R108). -/
def decode (w : InstrWord) : Except DecodeError Instr :=
  match decodeRow w with
  | some i => .ok i
  | none => .error (rejection w)

/-- The four bytes of a word as memory holds them, most significant byte first (R91, 20_memory.md R62). -/
def wordBytes (w : InstrWord) : List Byte :=
  [BitVec.ofNat 8 (slice w 31 24), BitVec.ofNat 8 (slice w 23 16), BitVec.ofNat 8 (slice w 15 8),
    BitVec.ofNat 8 (slice w 7 0)]

/-- The word of four bytes in memory order (R62). -/
def wordOfBytes (b0 b1 b2 b3 : Byte) : InstrWord :=
  BitVec.ofNat 32 (b0.toNat * 0x1000000 + b1.toNat * 0x10000 + b2.toNat * 0x100 + b3.toNat)

/-- The decoder on bytes: every instruction is the first four (R90). -/
def decodeBytes (bytes : List Byte) : Except DecodeError Instr :=
  match bytes with
  | b0 :: b1 :: b2 :: b3 :: _ => decode (wordOfBytes b0 b1 b2 b3)
  | _ => .error .truncated

/-- The instruction the decoder reads from the word whose bits spec/opcode_table.json numbers (bit 0 is W[0]); the
word is laid out in memory order and given to `decodeBytes`. -/
def decodeTableWord (nbits w : Nat) : Option Instr :=
  match decodeBytes (wordBytes (BitVec.ofNat 32 (w % 2 ^ nbits))) with
  | .ok i => some i
  | .error _ => none

/-- Format 0OP: the opcode byte and 24 ignored bits (R92, R109). -/
def word0OP (opcode : Nat) (ignored : BitVec 24) : InstrWord :=
  BitVec.ofNat 32 (opcode * 0x1000000 + ignored.toNat)

/-- Format 4OP, `01 nn ab cd` (R93). -/
def word4OP (xop : Nat) (a b c d : Reg) : InstrWord :=
  BitVec.ofNat 32 (0x01 * 0x1000000 + xop * 0x10000 + a.val * 0x1000 + b.val * 0x100 + c.val * 0x10 + d.val)

/-- Format 3OP, `05 nn na bc` (R94). -/
def word3OP (xop : Nat) (a b c : Reg) : InstrWord :=
  BitVec.ofNat 32 (0x05 * 0x1000000 + xop * 0x1000 + a.val * 0x100 + b.val * 0x10 + c.val)

/-- Format 2OP, `09 nn nn ab` (R95). -/
def word2OP (xop : Nat) (a b : Reg) : InstrWord :=
  BitVec.ofNat 32 (0x09 * 0x1000000 + xop * 0x100 + a.val * 0x10 + b.val)

/-- Format 1OP, `0D nn nn na` (R96). -/
def word1OP (xop : Nat) (a : Reg) : InstrWord :=
  BitVec.ofNat 32 (0x0D * 0x1000000 + xop * 0x10 + a.val)

/-- Format 2OPI: opcode byte, two registers, imm16 (R97, R460). -/
def word2OPI (opcode : Nat) (a b : Reg) (imm : Imm16) : InstrWord :=
  BitVec.ofNat 32 (opcode * 0x1000000 + a.val * 0x100000 + b.val * 0x10000 + imm.toNat)

/-- Format 1OPI: opcode byte, a 4-bit XOP, one register, imm16 (R98, R460). -/
def word1OPI (opcode xop : Nat) (a : Reg) (imm : Imm16) : InstrWord :=
  BitVec.ofNat 32 (opcode * 0x1000000 + xop * 0x100000 + a.val * 0x10000 + imm.toNat)

/-- Format 0OPI, `3C 00 ii ii` (R99). -/
def word0OPI (imm : Imm16) : InstrWord :=
  BitVec.ofNat 32 (0x3C * 0x1000000 + imm.toNat)

/-- Format HALCODE, `42 hh hh hh` (R100). -/
def wordHalcode (callId : Nat) : InstrWord :=
  BitVec.ofNat 32 (0x42 * 0x1000000 + callId)

/-- The word of an instruction, by the format of its row (R92 to R100). -/
def encode (i : Instr) : InstrWord :=
  match i with
  | .nop ignored => word0OP 0x00 ignored
  | .halt ignored => word0OP 0xFF ignored
  | .addCi a b c d => word4OP 0x00 a b c d
  | .addCo a b c d => word4OP 0x01 a b c d
  | .addCio a b c d => word4OP 0x02 a b c d
  | .adduCi a b c d => word4OP 0x03 a b c d
  | .adduCo a b c d => word4OP 0x04 a b c d
  | .adduCio a b c d => word4OP 0x05 a b c d
  | .subBi a b c d => word4OP 0x06 a b c d
  | .subBo a b c d => word4OP 0x07 a b c d
  | .subBio a b c d => word4OP 0x08 a b c d
  | .subuBi a b c d => word4OP 0x09 a b c d
  | .subuBo a b c d => word4OP 0x0A a b c d
  | .subuBio a b c d => word4OP 0x0B a b c d
  | .multiply a b c d => word4OP 0x0C a b c d
  | .multiplyu a b c d => word4OP 0x0D a b c d
  | .divide a b c d => word4OP 0x0E a b c d
  | .divideu a b c d => word4OP 0x0F a b c d
  | .mux a b c d => word4OP 0x10 a b c d
  | .nmux a b c d => word4OP 0x11 a b c d
  | .sort a b c d => word4OP 0x12 a b c d
  | .sortu a b c d => word4OP 0x13 a b c d
  | .add a b c => word3OP 0x000 a b c
  | .addu a b c => word3OP 0x001 a b c
  | .sub a b c => word3OP 0x002 a b c
  | .subu a b c => word3OP 0x003 a b c
  | .cmp a b c => word3OP 0x004 a b c
  | .cmpu a b c => word3OP 0x005 a b c
  | .mul a b c => word3OP 0x006 a b c
  | .mulh a b c => word3OP 0x007 a b c
  | .mulu a b c => word3OP 0x008 a b c
  | .muluh a b c => word3OP 0x009 a b c
  | .div a b c => word3OP 0x00A a b c
  | .mod a b c => word3OP 0x00B a b c
  | .divu a b c => word3OP 0x00C a b c
  | .modu a b c => word3OP 0x00D a b c
  | .max a b c => word3OP 0x010 a b c
  | .maxu a b c => word3OP 0x011 a b c
  | .min a b c => word3OP 0x012 a b c
  | .minu a b c => word3OP 0x013 a b c
  | .pack a b c => word3OP 0x014 a b c
  | .unpack a b c => word3OP 0x015 a b c
  | .pack8Co a b c => word3OP 0x016 a b c
  | .pack8uCo a b c => word3OP 0x017 a b c
  | .pack16Co a b c => word3OP 0x018 a b c
  | .pack16uCo a b c => word3OP 0x019 a b c
  | .pack32Co a b c => word3OP 0x01A a b c
  | .pack32uCo a b c => word3OP 0x01B a b c
  | .and a b c => word3OP 0x020 a b c
  | .or a b c => word3OP 0x021 a b c
  | .xor a b c => word3OP 0x022 a b c
  | .nand a b c => word3OP 0x023 a b c
  | .nor a b c => word3OP 0x024 a b c
  | .xnor a b c => word3OP 0x025 a b c
  | .mpq a b c => word3OP 0x026 a b c
  | .lpq a b c => word3OP 0x027 a b c
  | .cpq a b c => word3OP 0x028 a b c
  | .bpq a b c => word3OP 0x029 a b c
  | .sal a b c => word3OP 0x030 a b c
  | .sar a b c => word3OP 0x031 a b c
  | .sl0 a b c => word3OP 0x032 a b c
  | .sr0 a b c => word3OP 0x033 a b c
  | .sl1 a b c => word3OP 0x034 a b c
  | .sr1 a b c => word3OP 0x035 a b c
  | .rol a b c => word3OP 0x036 a b c
  | .ror a b c => word3OP 0x037 a b c
  | .loadx a b c => word3OP 0x038 a b c
  | .loadx8 a b c => word3OP 0x039 a b c
  | .loadxu8 a b c => word3OP 0x03A a b c
  | .loadx16 a b c => word3OP 0x03B a b c
  | .loadxu16 a b c => word3OP 0x03C a b c
  | .loadx32 a b c => word3OP 0x03D a b c
  | .loadxu32 a b c => word3OP 0x03E a b c
  | .storex a b c => word3OP 0x048 a b c
  | .storex8 a b c => word3OP 0x049 a b c
  | .storex16 a b c => word3OP 0x04A a b c
  | .storex32 a b c => word3OP 0x04B a b c
  | .cmpjumpG a b c => word3OP 0x050 a b c
  | .cmpjumpGe a b c => word3OP 0x051 a b c
  | .cmpjumpE a b c => word3OP 0x052 a b c
  | .cmpjumpNe a b c => word3OP 0x053 a b c
  | .cmpjumpLe a b c => word3OP 0x054 a b c
  | .cmpjumpL a b c => word3OP 0x055 a b c
  | .cmpjumpuG a b c => word3OP 0x060 a b c
  | .cmpjumpuGe a b c => word3OP 0x061 a b c
  | .cmpjumpuLe a b c => word3OP 0x064 a b c
  | .cmpjumpuL a b c => word3OP 0x065 a b c
  | .neg a b => word2OP 0x0000 a b
  | .abs a b => word2OP 0x0001 a b
  | .nabs a b => word2OP 0x0002 a b
  | .swap a b => word2OP 0x0003 a b
  | .copy a b => word2OP 0x0004 a b
  | .move a b => word2OP 0x0005 a b
  | .not a b => word2OP 0x0006 a b
  | .branch a b => word2OP 0x0100 a b
  | .call a b => word2OP 0x0101 a b
  | .pushr a b => word2OP 0x0200 a b
  | .push8 a b => word2OP 0x0201 a b
  | .push16 a b => word2OP 0x0202 a b
  | .push32 a b => word2OP 0x0203 a b
  | .popr a b => word2OP 0x0280 a b
  | .pop8 a b => word2OP 0x0281 a b
  | .popu8 a b => word2OP 0x0282 a b
  | .pop16 a b => word2OP 0x0283 a b
  | .popu16 a b => word2OP 0x0284 a b
  | .pop32 a b => word2OP 0x0285 a b
  | .popu32 a b => word2OP 0x0286 a b
  | .cmpskipG a b => word2OP 0x0300 a b
  | .cmpskipGe a b => word2OP 0x0301 a b
  | .cmpskipE a b => word2OP 0x0302 a b
  | .cmpskipNe a b => word2OP 0x0303 a b
  | .cmpskipLe a b => word2OP 0x0304 a b
  | .cmpskipL a b => word2OP 0x0305 a b
  | .cmpskipuG a b => word2OP 0x0380 a b
  | .cmpskipuGe a b => word2OP 0x0381 a b
  | .cmpskipuLe a b => word2OP 0x0384 a b
  | .cmpskipuL a b => word2OP 0x0385 a b
  | .readpc a => word1OP 0x00000 a
  | .readscid a => word1OP 0x00001 a
  | .setFalse a => word1OP 0x00002 a
  | .setTrue a => word1OP 0x00003 a
  | .jsrCoroutine a => word1OP 0x01000 a
  | .ret a => word1OP 0x01001 a
  | .pushpc a => word1OP 0x02000 a
  | .poppc a => word1OP 0x02001 a
  | .addi a b imm => word2OPI 0x0E a b imm
  | .addui a b imm => word2OPI 0x0F a b imm
  | .subi a b imm => word2OPI 0x10 a b imm
  | .subui a b imm => word2OPI 0x11 a b imm
  | .cmpi a b imm => word2OPI 0x12 a b imm
  | .load a b imm => word2OPI 0x13 a b imm
  | .load8 a b imm => word2OPI 0x14 a b imm
  | .loadu8 a b imm => word2OPI 0x15 a b imm
  | .load16 a b imm => word2OPI 0x16 a b imm
  | .loadu16 a b imm => word2OPI 0x17 a b imm
  | .load32 a b imm => word2OPI 0x18 a b imm
  | .loadu32 a b imm => word2OPI 0x19 a b imm
  | .cmpui a b imm => word2OPI 0x1F a b imm
  | .store a b imm => word2OPI 0x20 a b imm
  | .store8 a b imm => word2OPI 0x21 a b imm
  | .store16 a b imm => word2OPI 0x22 a b imm
  | .store32 a b imm => word2OPI 0x23 a b imm
  | .jumpC a imm => word1OPI 0x2C 0x0 a imm
  | .jumpB a imm => word1OPI 0x2C 0x1 a imm
  | .jumpO a imm => word1OPI 0x2C 0x2 a imm
  | .jumpG a imm => word1OPI 0x2C 0x3 a imm
  | .jumpGe a imm => word1OPI 0x2C 0x4 a imm
  | .jumpE a imm => word1OPI 0x2C 0x5 a imm
  | .jumpNe a imm => word1OPI 0x2C 0x6 a imm
  | .jumpLe a imm => word1OPI 0x2C 0x7 a imm
  | .jumpL a imm => word1OPI 0x2C 0x8 a imm
  | .jumpZ a imm => word1OPI 0x2C 0x9 a imm
  | .jumpNz a imm => word1OPI 0x2C 0xA a imm
  | .jumpP a imm => word1OPI 0x2C 0xB a imm
  | .jumpNp a imm => word1OPI 0x2C 0xC a imm
  | .calli a imm => word1OPI 0x2D 0x0 a imm
  | .loadi a imm => word1OPI 0x2D 0x1 a imm
  | .loadui a imm => word1OPI 0x2D 0x2 a imm
  | .sali a imm => word1OPI 0x2D 0x3 a imm
  | .sari a imm => word1OPI 0x2D 0x4 a imm
  | .sl0i a imm => word1OPI 0x2D 0x5 a imm
  | .sr0i a imm => word1OPI 0x2D 0x6 a imm
  | .sl1i a imm => word1OPI 0x2D 0x7 a imm
  | .sr1i a imm => word1OPI 0x2D 0x8 a imm
  | .loadr a imm => word1OPI 0x2E 0x0 a imm
  | .loadr8 a imm => word1OPI 0x2E 0x1 a imm
  | .loadru8 a imm => word1OPI 0x2E 0x2 a imm
  | .loadr16 a imm => word1OPI 0x2E 0x3 a imm
  | .loadru16 a imm => word1OPI 0x2E 0x4 a imm
  | .loadr32 a imm => word1OPI 0x2E 0x5 a imm
  | .loadru32 a imm => word1OPI 0x2E 0x6 a imm
  | .storer a imm => word1OPI 0x2F 0x0 a imm
  | .storer8 a imm => word1OPI 0x2F 0x1 a imm
  | .storer16 a imm => word1OPI 0x2F 0x2 a imm
  | .storer32 a imm => word1OPI 0x2F 0x3 a imm
  | .jump imm => word0OPI imm
  | .fopenRead => wordHalcode 0x100000
  | .fopenWrite => wordHalcode 0x100001
  | .fclose => wordHalcode 0x100002
  | .rewind => wordHalcode 0x100003
  | .fseek => wordHalcode 0x100004
  | .fgetc => wordHalcode 0x100100
  | .fputc => wordHalcode 0x100200
  | .cmpskipiG a imm => word1OPI 0xA0 0x0 a imm
  | .cmpskipiGe a imm => word1OPI 0xA0 0x1 a imm
  | .cmpskipiE a imm => word1OPI 0xA0 0x2 a imm
  | .cmpskipiNe a imm => word1OPI 0xA0 0x3 a imm
  | .cmpskipiLe a imm => word1OPI 0xA0 0x4 a imm
  | .cmpskipiL a imm => word1OPI 0xA0 0x5 a imm
  | .cmpskipuiG a imm => word1OPI 0xA1 0x0 a imm
  | .cmpskipuiGe a imm => word1OPI 0xA1 0x1 a imm
  | .cmpskipuiLe a imm => word1OPI 0xA1 0x4 a imm
  | .cmpskipuiL a imm => word1OPI 0xA1 0x5 a imm
  | .andi a b imm => word2OPI 0xB0 a b imm
  | .ori a b imm => word2OPI 0xB1 a b imm
  | .xori a b imm => word2OPI 0xB2 a b imm
  | .nandi a b imm => word2OPI 0xB3 a b imm
  | .nori a b imm => word2OPI 0xB4 a b imm
  | .xnori a b imm => word2OPI 0xB5 a b imm
  | .cmpjumpiG a b imm => word2OPI 0xC0 a b imm
  | .cmpjumpiGe a b imm => word2OPI 0xC1 a b imm
  | .cmpjumpiE a b imm => word2OPI 0xC2 a b imm
  | .cmpjumpiNe a b imm => word2OPI 0xC3 a b imm
  | .cmpjumpiLe a b imm => word2OPI 0xC4 a b imm
  | .cmpjumpiL a b imm => word2OPI 0xC5 a b imm
  | .cmpjumpuiG a b imm => word2OPI 0xD0 a b imm
  | .cmpjumpuiGe a b imm => word2OPI 0xD1 a b imm
  | .cmpjumpuiLe a b imm => word2OPI 0xD4 a b imm
  | .cmpjumpuiL a b imm => word2OPI 0xD5 a b imm

/-- The row of spec/opcode_table.json an instruction stands in: its `match` and its `mask` (R104). Written from the
table, not from the formats above, so that the two can be compared. -/
def tableRow (i : Instr) : Nat × Nat :=
  match i with
  | .nop _ => (0x00000000, 0xFF000000)
  | .halt _ => (0xFF000000, 0xFF000000)
  | .addCi _ _ _ _ => (0x01000000, 0xFFFF0000)
  | .addCo _ _ _ _ => (0x01010000, 0xFFFF0000)
  | .addCio _ _ _ _ => (0x01020000, 0xFFFF0000)
  | .adduCi _ _ _ _ => (0x01030000, 0xFFFF0000)
  | .adduCo _ _ _ _ => (0x01040000, 0xFFFF0000)
  | .adduCio _ _ _ _ => (0x01050000, 0xFFFF0000)
  | .subBi _ _ _ _ => (0x01060000, 0xFFFF0000)
  | .subBo _ _ _ _ => (0x01070000, 0xFFFF0000)
  | .subBio _ _ _ _ => (0x01080000, 0xFFFF0000)
  | .subuBi _ _ _ _ => (0x01090000, 0xFFFF0000)
  | .subuBo _ _ _ _ => (0x010A0000, 0xFFFF0000)
  | .subuBio _ _ _ _ => (0x010B0000, 0xFFFF0000)
  | .multiply _ _ _ _ => (0x010C0000, 0xFFFF0000)
  | .multiplyu _ _ _ _ => (0x010D0000, 0xFFFF0000)
  | .divide _ _ _ _ => (0x010E0000, 0xFFFF0000)
  | .divideu _ _ _ _ => (0x010F0000, 0xFFFF0000)
  | .mux _ _ _ _ => (0x01100000, 0xFFFF0000)
  | .nmux _ _ _ _ => (0x01110000, 0xFFFF0000)
  | .sort _ _ _ _ => (0x01120000, 0xFFFF0000)
  | .sortu _ _ _ _ => (0x01130000, 0xFFFF0000)
  | .add _ _ _ => (0x05000000, 0xFFFFF000)
  | .addu _ _ _ => (0x05001000, 0xFFFFF000)
  | .sub _ _ _ => (0x05002000, 0xFFFFF000)
  | .subu _ _ _ => (0x05003000, 0xFFFFF000)
  | .cmp _ _ _ => (0x05004000, 0xFFFFF000)
  | .cmpu _ _ _ => (0x05005000, 0xFFFFF000)
  | .mul _ _ _ => (0x05006000, 0xFFFFF000)
  | .mulh _ _ _ => (0x05007000, 0xFFFFF000)
  | .mulu _ _ _ => (0x05008000, 0xFFFFF000)
  | .muluh _ _ _ => (0x05009000, 0xFFFFF000)
  | .div _ _ _ => (0x0500A000, 0xFFFFF000)
  | .mod _ _ _ => (0x0500B000, 0xFFFFF000)
  | .divu _ _ _ => (0x0500C000, 0xFFFFF000)
  | .modu _ _ _ => (0x0500D000, 0xFFFFF000)
  | .max _ _ _ => (0x05010000, 0xFFFFF000)
  | .maxu _ _ _ => (0x05011000, 0xFFFFF000)
  | .min _ _ _ => (0x05012000, 0xFFFFF000)
  | .minu _ _ _ => (0x05013000, 0xFFFFF000)
  | .pack _ _ _ => (0x05014000, 0xFFFFF000)
  | .unpack _ _ _ => (0x05015000, 0xFFFFF000)
  | .pack8Co _ _ _ => (0x05016000, 0xFFFFF000)
  | .pack8uCo _ _ _ => (0x05017000, 0xFFFFF000)
  | .pack16Co _ _ _ => (0x05018000, 0xFFFFF000)
  | .pack16uCo _ _ _ => (0x05019000, 0xFFFFF000)
  | .pack32Co _ _ _ => (0x0501A000, 0xFFFFF000)
  | .pack32uCo _ _ _ => (0x0501B000, 0xFFFFF000)
  | .and _ _ _ => (0x05020000, 0xFFFFF000)
  | .or _ _ _ => (0x05021000, 0xFFFFF000)
  | .xor _ _ _ => (0x05022000, 0xFFFFF000)
  | .nand _ _ _ => (0x05023000, 0xFFFFF000)
  | .nor _ _ _ => (0x05024000, 0xFFFFF000)
  | .xnor _ _ _ => (0x05025000, 0xFFFFF000)
  | .mpq _ _ _ => (0x05026000, 0xFFFFF000)
  | .lpq _ _ _ => (0x05027000, 0xFFFFF000)
  | .cpq _ _ _ => (0x05028000, 0xFFFFF000)
  | .bpq _ _ _ => (0x05029000, 0xFFFFF000)
  | .sal _ _ _ => (0x05030000, 0xFFFFF000)
  | .sar _ _ _ => (0x05031000, 0xFFFFF000)
  | .sl0 _ _ _ => (0x05032000, 0xFFFFF000)
  | .sr0 _ _ _ => (0x05033000, 0xFFFFF000)
  | .sl1 _ _ _ => (0x05034000, 0xFFFFF000)
  | .sr1 _ _ _ => (0x05035000, 0xFFFFF000)
  | .rol _ _ _ => (0x05036000, 0xFFFFF000)
  | .ror _ _ _ => (0x05037000, 0xFFFFF000)
  | .loadx _ _ _ => (0x05038000, 0xFFFFF000)
  | .loadx8 _ _ _ => (0x05039000, 0xFFFFF000)
  | .loadxu8 _ _ _ => (0x0503A000, 0xFFFFF000)
  | .loadx16 _ _ _ => (0x0503B000, 0xFFFFF000)
  | .loadxu16 _ _ _ => (0x0503C000, 0xFFFFF000)
  | .loadx32 _ _ _ => (0x0503D000, 0xFFFFF000)
  | .loadxu32 _ _ _ => (0x0503E000, 0xFFFFF000)
  | .storex _ _ _ => (0x05048000, 0xFFFFF000)
  | .storex8 _ _ _ => (0x05049000, 0xFFFFF000)
  | .storex16 _ _ _ => (0x0504A000, 0xFFFFF000)
  | .storex32 _ _ _ => (0x0504B000, 0xFFFFF000)
  | .cmpjumpG _ _ _ => (0x05050000, 0xFFFFF000)
  | .cmpjumpGe _ _ _ => (0x05051000, 0xFFFFF000)
  | .cmpjumpE _ _ _ => (0x05052000, 0xFFFFF000)
  | .cmpjumpNe _ _ _ => (0x05053000, 0xFFFFF000)
  | .cmpjumpLe _ _ _ => (0x05054000, 0xFFFFF000)
  | .cmpjumpL _ _ _ => (0x05055000, 0xFFFFF000)
  | .cmpjumpuG _ _ _ => (0x05060000, 0xFFFFF000)
  | .cmpjumpuGe _ _ _ => (0x05061000, 0xFFFFF000)
  | .cmpjumpuLe _ _ _ => (0x05064000, 0xFFFFF000)
  | .cmpjumpuL _ _ _ => (0x05065000, 0xFFFFF000)
  | .neg _ _ => (0x09000000, 0xFFFFFF00)
  | .abs _ _ => (0x09000100, 0xFFFFFF00)
  | .nabs _ _ => (0x09000200, 0xFFFFFF00)
  | .swap _ _ => (0x09000300, 0xFFFFFF00)
  | .copy _ _ => (0x09000400, 0xFFFFFF00)
  | .move _ _ => (0x09000500, 0xFFFFFF00)
  | .not _ _ => (0x09000600, 0xFFFFFF00)
  | .branch _ _ => (0x09010000, 0xFFFFFF00)
  | .call _ _ => (0x09010100, 0xFFFFFF00)
  | .pushr _ _ => (0x09020000, 0xFFFFFF00)
  | .push8 _ _ => (0x09020100, 0xFFFFFF00)
  | .push16 _ _ => (0x09020200, 0xFFFFFF00)
  | .push32 _ _ => (0x09020300, 0xFFFFFF00)
  | .popr _ _ => (0x09028000, 0xFFFFFF00)
  | .pop8 _ _ => (0x09028100, 0xFFFFFF00)
  | .popu8 _ _ => (0x09028200, 0xFFFFFF00)
  | .pop16 _ _ => (0x09028300, 0xFFFFFF00)
  | .popu16 _ _ => (0x09028400, 0xFFFFFF00)
  | .pop32 _ _ => (0x09028500, 0xFFFFFF00)
  | .popu32 _ _ => (0x09028600, 0xFFFFFF00)
  | .cmpskipG _ _ => (0x09030000, 0xFFFFFF00)
  | .cmpskipGe _ _ => (0x09030100, 0xFFFFFF00)
  | .cmpskipE _ _ => (0x09030200, 0xFFFFFF00)
  | .cmpskipNe _ _ => (0x09030300, 0xFFFFFF00)
  | .cmpskipLe _ _ => (0x09030400, 0xFFFFFF00)
  | .cmpskipL _ _ => (0x09030500, 0xFFFFFF00)
  | .cmpskipuG _ _ => (0x09038000, 0xFFFFFF00)
  | .cmpskipuGe _ _ => (0x09038100, 0xFFFFFF00)
  | .cmpskipuLe _ _ => (0x09038400, 0xFFFFFF00)
  | .cmpskipuL _ _ => (0x09038500, 0xFFFFFF00)
  | .readpc _ => (0x0D000000, 0xFFFFFFF0)
  | .readscid _ => (0x0D000010, 0xFFFFFFF0)
  | .setFalse _ => (0x0D000020, 0xFFFFFFF0)
  | .setTrue _ => (0x0D000030, 0xFFFFFFF0)
  | .jsrCoroutine _ => (0x0D010000, 0xFFFFFFF0)
  | .ret _ => (0x0D010010, 0xFFFFFFF0)
  | .pushpc _ => (0x0D020000, 0xFFFFFFF0)
  | .poppc _ => (0x0D020010, 0xFFFFFFF0)
  | .addi _ _ _ => (0x0E000000, 0xFF000000)
  | .addui _ _ _ => (0x0F000000, 0xFF000000)
  | .subi _ _ _ => (0x10000000, 0xFF000000)
  | .subui _ _ _ => (0x11000000, 0xFF000000)
  | .cmpi _ _ _ => (0x12000000, 0xFF000000)
  | .load _ _ _ => (0x13000000, 0xFF000000)
  | .load8 _ _ _ => (0x14000000, 0xFF000000)
  | .loadu8 _ _ _ => (0x15000000, 0xFF000000)
  | .load16 _ _ _ => (0x16000000, 0xFF000000)
  | .loadu16 _ _ _ => (0x17000000, 0xFF000000)
  | .load32 _ _ _ => (0x18000000, 0xFF000000)
  | .loadu32 _ _ _ => (0x19000000, 0xFF000000)
  | .cmpui _ _ _ => (0x1F000000, 0xFF000000)
  | .store _ _ _ => (0x20000000, 0xFF000000)
  | .store8 _ _ _ => (0x21000000, 0xFF000000)
  | .store16 _ _ _ => (0x22000000, 0xFF000000)
  | .store32 _ _ _ => (0x23000000, 0xFF000000)
  | .jumpC _ _ => (0x2C000000, 0xFFF00000)
  | .jumpB _ _ => (0x2C100000, 0xFFF00000)
  | .jumpO _ _ => (0x2C200000, 0xFFF00000)
  | .jumpG _ _ => (0x2C300000, 0xFFF00000)
  | .jumpGe _ _ => (0x2C400000, 0xFFF00000)
  | .jumpE _ _ => (0x2C500000, 0xFFF00000)
  | .jumpNe _ _ => (0x2C600000, 0xFFF00000)
  | .jumpLe _ _ => (0x2C700000, 0xFFF00000)
  | .jumpL _ _ => (0x2C800000, 0xFFF00000)
  | .jumpZ _ _ => (0x2C900000, 0xFFF00000)
  | .jumpNz _ _ => (0x2CA00000, 0xFFF00000)
  | .jumpP _ _ => (0x2CB00000, 0xFFF00000)
  | .jumpNp _ _ => (0x2CC00000, 0xFFF00000)
  | .calli _ _ => (0x2D000000, 0xFFF00000)
  | .loadi _ _ => (0x2D100000, 0xFFF00000)
  | .loadui _ _ => (0x2D200000, 0xFFF00000)
  | .sali _ _ => (0x2D300000, 0xFFF00000)
  | .sari _ _ => (0x2D400000, 0xFFF00000)
  | .sl0i _ _ => (0x2D500000, 0xFFF00000)
  | .sr0i _ _ => (0x2D600000, 0xFFF00000)
  | .sl1i _ _ => (0x2D700000, 0xFFF00000)
  | .sr1i _ _ => (0x2D800000, 0xFFF00000)
  | .loadr _ _ => (0x2E000000, 0xFFF00000)
  | .loadr8 _ _ => (0x2E100000, 0xFFF00000)
  | .loadru8 _ _ => (0x2E200000, 0xFFF00000)
  | .loadr16 _ _ => (0x2E300000, 0xFFF00000)
  | .loadru16 _ _ => (0x2E400000, 0xFFF00000)
  | .loadr32 _ _ => (0x2E500000, 0xFFF00000)
  | .loadru32 _ _ => (0x2E600000, 0xFFF00000)
  | .storer _ _ => (0x2F000000, 0xFFF00000)
  | .storer8 _ _ => (0x2F100000, 0xFFF00000)
  | .storer16 _ _ => (0x2F200000, 0xFFF00000)
  | .storer32 _ _ => (0x2F300000, 0xFFF00000)
  | .jump _ => (0x3C000000, 0xFFFF0000)
  | .fopenRead => (0x42100000, 0xFFFFFFFF)
  | .fopenWrite => (0x42100001, 0xFFFFFFFF)
  | .fclose => (0x42100002, 0xFFFFFFFF)
  | .rewind => (0x42100003, 0xFFFFFFFF)
  | .fseek => (0x42100004, 0xFFFFFFFF)
  | .fgetc => (0x42100100, 0xFFFFFFFF)
  | .fputc => (0x42100200, 0xFFFFFFFF)
  | .cmpskipiG _ _ => (0xA0000000, 0xFFF00000)
  | .cmpskipiGe _ _ => (0xA0100000, 0xFFF00000)
  | .cmpskipiE _ _ => (0xA0200000, 0xFFF00000)
  | .cmpskipiNe _ _ => (0xA0300000, 0xFFF00000)
  | .cmpskipiLe _ _ => (0xA0400000, 0xFFF00000)
  | .cmpskipiL _ _ => (0xA0500000, 0xFFF00000)
  | .cmpskipuiG _ _ => (0xA1000000, 0xFFF00000)
  | .cmpskipuiGe _ _ => (0xA1100000, 0xFFF00000)
  | .cmpskipuiLe _ _ => (0xA1400000, 0xFFF00000)
  | .cmpskipuiL _ _ => (0xA1500000, 0xFFF00000)
  | .andi _ _ _ => (0xB0000000, 0xFF000000)
  | .ori _ _ _ => (0xB1000000, 0xFF000000)
  | .xori _ _ _ => (0xB2000000, 0xFF000000)
  | .nandi _ _ _ => (0xB3000000, 0xFF000000)
  | .nori _ _ _ => (0xB4000000, 0xFF000000)
  | .xnori _ _ _ => (0xB5000000, 0xFF000000)
  | .cmpjumpiG _ _ _ => (0xC0000000, 0xFF000000)
  | .cmpjumpiGe _ _ _ => (0xC1000000, 0xFF000000)
  | .cmpjumpiE _ _ _ => (0xC2000000, 0xFF000000)
  | .cmpjumpiNe _ _ _ => (0xC3000000, 0xFF000000)
  | .cmpjumpiLe _ _ _ => (0xC4000000, 0xFF000000)
  | .cmpjumpiL _ _ _ => (0xC5000000, 0xFF000000)
  | .cmpjumpuiG _ _ _ => (0xD0000000, 0xFF000000)
  | .cmpjumpuiGe _ _ _ => (0xD1000000, 0xFF000000)
  | .cmpjumpuiLe _ _ _ => (0xD4000000, 0xFF000000)
  | .cmpjumpuiL _ _ _ => (0xD5000000, 0xFF000000)

/-- A word matches a row when the bits under the row's mask are the row's match (R104). -/
def matchesRow (w : InstrWord) (row : Nat × Nat) : Bool :=
  (w &&& BitVec.ofNat 32 row.2) == BitVec.ofNat 32 row.1

end Sys2Proof
end

