-- ==== Sys2Proof/Machine/State.lean ====
section
/-!
DEFINITION. State: the complete state of 10_state.md, "x[0..15], pc, mem, tape1, tape2, tty, status", as plain data, with
the parameter XLEN beside it, and the state after reset (70_reset_and_hazards.md R541). The faults and refusals of
60_exceptions.md stand here too.
-/

namespace Sys2Proof.Machine

/-- The faults of 60_exceptions.md R501 to R508. A fault is a final state of the machine (R500): the meaning that raises
one answers a NEXT state whose status is `faulted` with one of these, so `Host.Outcome.fault` is never answered (log 10).
Each is safe: it is what the spec says the machine does. -/
inductive Fault where
  /-- Raised by the step when the fetched word is no row of the listing and not a HALCODE (R501). Safe. -/
  | illegalInstruction (w : InstrWord)
  /-- Raised by the fetch, the loads, stores, pushes, pops, calls and returns that leave memory (R502). Safe. -/
  | memoryOutOfRange (address width : Nat)
  /-- Raised by DIV, MOD, DIVU, MODU, DIVIDE, DIVIDEU (R503). Safe. -/
  | divideByZero
  /-- Raised by DIV, MOD, DIVIDE under DIV_OVERFLOW = fault (R504). Safe. -/
  | divideOverflow
  /-- Raised by the step on a HALCODE word whose callID is undefined (R505). Safe. -/
  | invalidHalcode (callId : BitVec 24)
  /-- Raised by the seven HALCODEs when the device register names no device (R506). Safe. -/
  | invalidDevice (value : Nat)
  /-- Raised by FGETC and FPUTC on a tape not open in the matching mode (R507). Safe. -/
  | deviceNotOpen (device : Nat)
  /-- Raised by FSEEK when the new position is before the tape's start (R508). Safe. -/
  | seekOutOfRange (device : Nat) (position : Int)
deriving DecidableEq, Repr

/-- The refusals: there is no next state (00_scope.md R14). -/
inductive Refusal where
  /-- Raised by an arm of `exec` whose instruction has no meaning yet. Safe. No arm of this model does. -/
  | notModelled (mnemonic : String)
  /-- Raised by the 22 instructions of 10_state.md R37 when their two destinations are one register (R509). Safe: the
  spec gives no next state. -/
  | coincidingDestinations
  /-- Raised by PACK, UNPACK and the six PACKn.CO instructions (R510). Safe: the spec gives no next state. -/
  | unspecifiedSemantics
deriving DecidableEq, Repr

/-- The run status (10_state.md R41). -/
inductive RunStatus where
  | running
  | halted
  | faulted (cause : Fault)
deriving DecidableEq, Repr

/-- The mode of a tape (48_halcode.md R432). -/
inductive TapeMode where
  | closed
  | reading
  | writing
deriving DecidableEq, Repr

/-- A tape: its contents from index 0, the index of the byte under the head, its mode (R432). -/
structure Tape where
  cells : List Byte
  pos : Nat
  mode : TapeMode
deriving DecidableEq, Repr

/-- The keyboard/tty: the bytes still to be read and the bytes written so far, oldest first (R432). -/
structure Tty where
  input : List Byte
  output : List Byte
deriving DecidableEq, Repr

/-- The two tapes of R431. -/
inductive TapeId where
  | tape1
  | tape2
deriving DecidableEq, Repr

/-- The three devices of R431. -/
inductive Device where
  | tty
  | tape (t : TapeId)
deriving DecidableEq, Repr

/-- Memory: MEMSIZE bytes (20_memory.md R60). `size` is MEMSIZE, which no operation changes (log 2); `cells` lists the
bytes that are not 0x00, by rising address. A byte of the memory that is not listed reads as 0x00, its reset value
(10_state.md R45). -/
structure Memory where
  size : Nat
  cells : List Host.Cell
deriving DecidableEq, Repr

/-- The state of a machine whose XLEN is n (10_state.md, head of the file; R43 says there is no other). -/
structure Mach (n : Xlen) where
  /-- REG0 to REG15 (R30). -/
  regs : Vector (Word n) 16
  /-- The program counter (R32). -/
  pc : Word n
  /-- The one memory (R39). -/
  mem : Memory
  /-- Tape 1 (R40). -/
  tape1 : Tape
  /-- Tape 2 (R40). -/
  tape2 : Tape
  /-- The keyboard/tty (R40). -/
  tty : Tty
  /-- The run status (R41). -/
  status : RunStatus
deriving DecidableEq, Repr

/-- The state of the machine, with its XLEN, which no step changes (00_scope.md R5, log 1). -/
structure State where
  xlen : Xlen
  mach : Mach xlen
deriving DecidableEq, Repr

/-- The machine with its XLEN beside it. -/
abbrev Mach.toState {n : Xlen} (s : Mach n) : State :=
  { xlen := n, mach := s }

/-- What a step or a meaning answers. -/
abbrev Result : Type := Host.Outcome State Fault Refusal

/-- What an operation on a machine of one XLEN answers. -/
abbrev MachResult (n : Xlen) : Type := Host.Outcome (Mach n) Fault Refusal

/-- A tape right after reset (R541, R544): closed, head at cell 0. -/
def Tape.reset (cells : List Byte) : Tape :=
  { cells := cells, pos := 0, mode := .closed }

/-- The machine right after reset, with the default parameters and inputs of R5, R6, R8 and R541: 32 bits, the empty
image, empty tapes, no keyboard input (log 1, log 2, log 8, log 9). -/
def State.reset : State :=
  Mach.toState
    { regs := Vector.replicate 16 (Config.resetReg Config.resetXlen)
      pc := Config.resetPc Config.resetXlen
      mem := { size := Config.memSize, cells := [] }
      tape1 := Tape.reset []
      tape2 := Tape.reset []
      tty := { input := [], output := [] }
      status := .running }

end Sys2Proof.Machine
end

