-- ==== Sys2Proof/Machine/Flags.lean ====
section
/-!
DEFINITION. Flags: the condition bits, which are bits of general registers (10_state.md R35), the carries and borrows of
41_4op_integer.md R151 and R152, the compare result of 42_3op_integer_alu.md R186, and the six relations of the jump and
skip families.
-/

namespace Sys2Proof.Machine

variable {n : Xlen}

/-- The mask of the Carry bit (R35). -/
def carryBit : Word n := 0x20

/-- The mask of the Borrow bit (R35). -/
def borrowBit : Word n := 0x10

/-- The mask of the Overflow bit (R35): tested by JUMP.O, written by nothing. -/
def overflowBit : Word n := 0x08

/-- The mask of the Greater bit (R35). -/
def greaterBit : Word n := 0x04

/-- The mask of the Equal bit (R35). -/
def equalBit : Word n := 0x02

/-- The mask of the Less bit (R35). -/
def lessBit : Word n := 0x01

/-- "(v & mask) != 0": a test of condition bits (R35, R151). -/
def testBits (v mask : Word n) : Bool :=
  (v &&& mask) != 0

/-- "f ? (v | mask) : (v & ~mask)": sets or clears the bits of the mask and keeps the others (R151). -/
def putBits (v mask : Word n) (f : Bool) : Word n :=
  if f then v ||| mask else v &&& ~~~mask

/-- The unsigned carry out: the exact sum does not fit in n bits (R157). -/
def carryUnsigned (x y : Word n) (cin : Bool) : Bool :=
  decide (2 ^ n.bits ≤ x.toNat + y.toNat + cin.toNat)

/-- The unsigned borrow out: the exact difference is negative (R163). -/
def borrowUnsigned (x y : Word n) (bin : Bool) : Bool :=
  decide (x.toNat < y.toNat + bin.toNat)

/-- The signed carry out, an open parameter (R152, log 4). -/
def carrySigned (x y : Word n) (cin : Bool) : Bool :=
  Config.scarry x y cin

/-- The signed borrow out, an open parameter (R152, log 4). -/
def borrowSigned (x y : Word n) (bin : Bool) : Bool :=
  Config.sborrow x y bin

/-- The whole condition value of a compare: exactly one of Greater, Equal, Less (R35, R186). -/
def compareValue (x y : Int) : Word n :=
  if y < x then greaterBit else if x = y then equalBit else lessBit

/-- The relations of CMPJUMP, CMPSKIP and their immediate forms: the suffix of the mnemonic (R253 to R258). -/
inductive Relation where
  | g
  | ge
  | e
  | ne
  | le
  | l
deriving DecidableEq, Repr

/-- The relation of two integers. -/
def Relation.holds (r : Relation) (x y : Int) : Bool :=
  match r with
  | .g => decide (y < x)
  | .ge => decide (y ≤ x)
  | .e => decide (x = y)
  | .ne => decide (x ≠ y)
  | .le => decide (x ≤ y)
  | .l => decide (x < y)

/-- The relation of two patterns read in two's complement, s(x) and s(y) (00_scope.md R10). -/
def relSigned (r : Relation) (x y : Word n) : Bool :=
  r.holds x.toInt y.toInt

/-- The relation of two patterns read as unsigned integers, u(x) and u(y) (R10). -/
def relUnsigned (r : Relation) (x y : Word n) : Bool :=
  r.holds x.toNat y.toNat

end Sys2Proof.Machine
end

