-- ==== Sys2Proof/Machine/Arith.lean ====
section
/-!
DEFINITION. Arith: the values that the arithmetic, logic and shift instructions compute (41_4op_integer.md,
42_3op_integer_alu.md, 44_2op_integer.md, 47_1opi_0opi.md), as functions of patterns. An integer assigned to a register
is reduced modulo 2^n (00_scope.md R10).
-/

namespace Sys2Proof.Machine

variable {n : Xlen}

/-- "x + y + cin mod 2^n" (R153). -/
def addCarry (x y : Word n) (cin : Bool) : Word n :=
  x + y + (if cin then 1 else 0)

/-- "x - y - bin mod 2^n" (R159). -/
def subBorrow (x y : Word n) (bin : Bool) : Word n :=
  x - y - (if bin then 1 else 0)

/-- The low half of a product; the same pattern for s and u (R188, R190). -/
def mulLow (x y : Word n) : Word n :=
  x * y

/-- The high half of the exact signed product, floor(s * s / 2^n) (R165, R189). -/
def mulHighSigned (x y : Word n) : Word n :=
  BitVec.ofInt n.bits ((x.toInt * y.toInt) / 2 ^ n.bits)

/-- The high half of the exact unsigned product (R166, R191). -/
def mulHighUnsigned (x y : Word n) : Word n :=
  BitVec.ofNat n.bits ((x.toNat * y.toNat) / 2 ^ n.bits)

/-- Signed division, quotient truncated toward zero and remainder with the sign of the dividend, with its two checks in
order (R167, R192, R193, R503, R504; the corner's setting is log 5). -/
def divideSigned (x y : Word n) : Except Fault (Word n × Word n) :=
  if y.toInt = 0 then .error .divideByZero
  else if x.toInt = -2 ^ (n.bits - 1) ∧ y.toInt = -1 then
    match Config.divOverflow with
    | .fault => .error .divideOverflow
    | .wrap => .ok (BitVec.ofInt n.bits (-2 ^ (n.bits - 1)), 0)
  else
    .ok (BitVec.ofInt n.bits (x.toInt.tdiv y.toInt),
      BitVec.ofInt n.bits (x.toInt - x.toInt.tdiv y.toInt * y.toInt))

/-- Unsigned division (R168, R194, R195, R503). -/
def divideUnsigned (x y : Word n) : Except Fault (Word n × Word n) :=
  if y.toNat = 0 then .error .divideByZero
  else .ok (BitVec.ofNat n.bits (x.toNat / y.toNat), BitVec.ofNat n.bits (x.toNat % y.toNat))

/-- The larger of two patterns read with s, the first when equal (R171, R196). -/
def maxSigned (x y : Word n) : Word n :=
  if x.toInt ≥ y.toInt then x else y

/-- The larger of two patterns read with u (R172, R197). -/
def maxUnsigned (x y : Word n) : Word n :=
  if x.toNat ≥ y.toNat then x else y

/-- The smaller of two patterns read with s (R171, R198). -/
def minSigned (x y : Word n) : Word n :=
  if x.toInt ≤ y.toInt then x else y

/-- The smaller of two patterns read with u (R172, R199). -/
def minUnsigned (x y : Word n) : Word n :=
  if x.toNat ≤ y.toNat then x else y

/-- The count of a shift: "min(u(v), n)", so every count of n or more shifts everything out (R218). -/
def shiftCount (v : Word n) : Nat :=
  min v.toNat n.bits

/-- The count of a rotate: "u(v) mod n" (R224). -/
def rotateCount (v : Word n) : Nat :=
  v.toNat % n.bits

/-- Shift left, zeros in (R218, R220). -/
def shiftLeft0 (x : Word n) (k : Nat) : Word n :=
  x <<< k

/-- Shift right, copies of the sign bit in: floor(s(x) / 2^k) (R219). -/
def shiftRightSign (x : Word n) (k : Nat) : Word n :=
  x.sshiftRight k

/-- Shift right, zeros in (R221). -/
def shiftRight0 (x : Word n) (k : Nat) : Word n :=
  x >>> k

/-- Shift left, ones in (R222). -/
def shiftLeft1 (x : Word n) (k : Nat) : Word n :=
  (x <<< k) ||| BitVec.ofNat n.bits (2 ^ k - 1)

/-- Shift right, ones in (R223). -/
def shiftRight1 (x : Word n) (k : Nat) : Word n :=
  (x >>> k) ||| BitVec.ofNat n.bits ((2 ^ k - 1) * 2 ^ (n.bits - k))

/-- Rotate left by k < n (R224). -/
def rotateLeft (x : Word n) (k : Nat) : Word n :=
  (x <<< k) ||| (x >>> (n.bits - k))

/-- Rotate right by k < n (R225). -/
def rotateRight (x : Word n) (k : Nat) : Word n :=
  (x >>> k) ||| (x <<< (n.bits - k))

/-- Each bit from `one` where the selector's bit is 1 and from `zero` where it is 0 (R169). -/
def muxBits (selector zero one : Word n) : Word n :=
  (zero &&& ~~~selector) ||| (one &&& selector)

/-- NEG: the printed formula, with the parameter NEG_NEGATIVE for a negative source (R282, log 6). -/
def negValue (x : Word n) : Word n :=
  if 0 < x.toInt then 0 - x
  else if x.toInt = 0 then x
  else match Config.negNegative with
    | .copy => x
    | .negate => 0 - x

/-- ABS (R283): the least value stays as it is, modulo 2^n. -/
def absValue (x : Word n) : Word n :=
  if x.toInt < 0 then 0 - x else x

/-- NABS (R284). -/
def negAbsValue (x : Word n) : Word n :=
  if 0 < x.toInt then 0 - x else x

end Sys2Proof.Machine
end

