-- ==== Sys2Proof/Machine/Ops.lean ====
section
/-!
DEFINITION. Ops: the named operations over registers, memory and devices, and taking a fault. Every read and write of
state by an instruction goes through these.
-/

namespace Sys2Proof.Machine

variable {n : Xlen}

/-! ### One XLEN -/

/-- The answer of an operation, with XLEN put back beside the machine: no operation changes it (00_scope.md R5). -/
def MachResult.lift (r : MachResult n) : Result :=
  match r with
  | .next s => .next s.toState
  | .fault f => .fault f
  | .refused x => .refused x

/-- A meaning: an operation on the machine, at the XLEN it has. -/
def State.apply (s : State) (f : Mach s.xlen → MachResult s.xlen) : Result :=
  MachResult.lift (f s.mach)

/-! ### Registers and the program counter (10_state.md R30 to R34) -/

/-- x[r]. -/
def Mach.reg (s : Mach n) (r : Reg) : Word n :=
  s.regs.get r

/-- x[r] <- v: no register is hard-wired (R31). -/
def Mach.setReg (s : Mach n) (r : Reg) (v : Word n) : Mach n :=
  { s with regs := s.regs.set r.val v r.isLt }

/-- pc <- v: a target needs no alignment and never faults at the jump (R34). -/
def Mach.setPc (s : Mach n) (v : Word n) : Mach n :=
  { s with pc := v }

/-- status <- v (R41). -/
def Mach.setStatus (s : Mach n) (v : RunStatus) : Mach n :=
  { s with status := v }

/-- pc <- (pc + 4) mod 2^n: what the fetch does (R33) and what a taken skip does again (R34). -/
def Mach.advance (s : Mach n) : Mach n :=
  s.setPc (s.pc + 4)

/-! ### One byte of memory (20_memory.md R60, R63) -/

/-- What an unlisted byte reads as: its reset value 0x00 (10_state.md R45). -/
def unlistedByte : Byte := 0

/-- The byte a list of cells gives an address. -/
def cellsGet (cells : List Host.Cell) (a : Nat) : Byte :=
  match cells with
  | [] => unlistedByte
  | cell :: rest => if cell.1 = a then cell.2 else cellsGet rest a

/-- The cells without an address. -/
def cellsErase (cells : List Host.Cell) (a : Nat) : List Host.Cell :=
  match cells with
  | [] => []
  | cell :: rest => if cell.1 = a then cellsErase rest a else cell :: cellsErase rest a

/-- The cells with one more cell, before the first cell of a higher address. -/
def cellsInsert (cells : List Host.Cell) (a : Nat) (b : Byte) : List Host.Cell :=
  match cells with
  | [] => [(a, b)]
  | cell :: rest => if a < cell.1 then (a, b) :: cell :: rest else cell :: cellsInsert rest a b

/-- Writes one byte and keeps the canonical form: a byte equal to what an unlisted address reads as is not listed. -/
def cellsPut (cells : List Host.Cell) (a : Nat) (b : Byte) : List Host.Cell :=
  if b = unlistedByte then cellsErase cells a else cellsInsert (cellsErase cells a) a b

/-- mem[a]. -/
def Memory.get (m : Memory) (a : Nat) : Byte :=
  cellsGet m.cells a

/-- mem[a] <- b. -/
def Memory.put (m : Memory) (a : Nat) (b : Byte) : Memory :=
  { m with cells := cellsPut m.cells a b }

/-- Addresses strictly rising, from a bound on. -/
def cellsRising (cells : List Host.Cell) (bound : Nat) : Bool :=
  match cells with
  | [] => true
  | cell :: rest => decide (bound ≤ cell.1) && cellsRising rest (cell.1 + 1)

/-- Every listed byte lies below MEMSIZE and differs from what an unlisted address reads as. -/
def cellsProper (cells : List Host.Cell) (size : Nat) : Bool :=
  cells.all fun cell => decide (cell.1 < size) && (cell.2 != unlistedByte)

/-- The canonical form of memory, with at least the 8 bytes of 00_scope.md R6. -/
def Memory.wf (m : Memory) : Bool :=
  decide (8 ≤ m.size) && cellsRising m.cells 0 && cellsProper m.cells m.size

/-! ### Accesses of k bytes, big-endian (20_memory.md R61, R62, R65 to R67) -/

/-- The number in the k bytes from an address on, the first byte most significant (R61). -/
def Memory.readBE (m : Memory) (a k : Nat) : Nat :=
  match k with
  | 0 => 0
  | k + 1 => (m.get a).toNat * 256 ^ k + m.readBE (a + 1) k

/-- Writes the low k bytes of a number, the most significant first (R61). -/
def Memory.writeBE (m : Memory) (a k v : Nat) : Memory :=
  match k with
  | 0 => m
  | k + 1 => (m.put a (BitVec.ofNat 8 (v / 256 ^ k))).writeBE (a + 1) k v

/-- The widths of an access (R65). -/
inductive Width where
  | bits8
  | bits16
  | bits32
  | register
deriving DecidableEq, Repr

/-- k, the bytes of a width; RB for the forms with no width in their name (R65). -/
def Width.bytes (w : Width) (n : Xlen) : Nat :=
  match w with
  | .bits8 => 1
  | .bits16 => 2
  | .bits32 => 4
  | .register => n.bytes

/-- How a narrow datum fills a register (R76). -/
inductive Extension where
  | signed
  | zero
deriving DecidableEq, Repr

/-- sext_n or zext_n of a datum of k bytes (00_scope.md R13, R76). -/
def extendDatum (e : Extension) (k v : Nat) : Word n :=
  match e with
  | .signed => (BitVec.ofNat (8 * k) v).signExtend n.bits
  | .zero => (BitVec.ofNat (8 * k) v).zeroExtend n.bits

/-- An access of k bytes lies in memory: its bytes do not wrap (R66, R67). -/
def Mach.inRange (s : Mach n) (address : Word n) (k : Nat) : Bool :=
  decide (address.toNat + k ≤ s.mem.size)

/-- MemRead with its extension, of an access in range. -/
def Mach.load (s : Mach n) (address : Word n) (w : Width) (e : Extension) : Word n :=
  extendDatum e (w.bytes n) (s.mem.readBE address.toNat (w.bytes n))

/-- MemWrite of an access in range: the low 8k bits of the value (00_scope.md R12, 20_memory.md R77). -/
def Mach.store (s : Mach n) (address : Word n) (w : Width) (v : Word n) : Mach n :=
  { s with mem := s.mem.writeBE address.toNat (w.bytes n) v.toNat }

/-! ### Faults (60_exceptions.md R500) -/

/-- The state a fault of the instruction at address A leaves, from the state before the instruction: nothing written,
pc at A, status Faulted (R500). There is no handler to enter and nothing to return from (R513). -/
def Mach.takeFault (s : Mach n) (instrAddress : Word n) (f : Fault) : Mach n :=
  (s.setPc instrAddress).setStatus (.faulted f)

/-- A fault raised by an instruction's own rule. The fetch has moved pc to A + 4 (10_state.md R33), so A is pc - 4. -/
def raiseFault (s : Mach n) (f : Fault) : MachResult n :=
  .next (s.takeFault (s.pc - 4) f)

/-! ### Shapes shared by many instructions -/

/-- x[a] <- v. -/
def writeReg (s : Mach n) (a : Reg) (v : Word n) : MachResult n :=
  .next (s.setReg a v)

/-- Two results in two registers; refused when they are one register (10_state.md R37). -/
def writePair (s : Mach n) (a b : Reg) (va vb : Word n) : MachResult n :=
  if a = b then .refused .coincidingDestinations else .next ((s.setReg a va).setReg b vb)

/-- pc <- target when the condition holds; otherwise the next word (R34). -/
def jumpIf (s : Mach n) (c : Bool) (target : Word n) : MachResult n :=
  .next (s.setPc (if c then target else s.pc))

/-- "Skip Next instruction" when the condition holds: pc a further 4 (R34). -/
def skipIf (s : Mach n) (c : Bool) : MachResult n :=
  .next (if c then s.advance else s)

/-- A load: range check, then x[a] <- the extended datum (20_memory.md R67, R76). -/
def loadReg (s : Mach n) (a : Reg) (address : Word n) (w : Width) (e : Extension) : MachResult n :=
  if s.inRange address (w.bytes n) then .next (s.setReg a (s.load address w e))
  else raiseFault s (.memoryOutOfRange address.toNat (w.bytes n))

/-- A store: range check, then the low bytes of the value (R67, R77). -/
def storeValue (s : Mach n) (address : Word n) (w : Width) (v : Word n) : MachResult n :=
  if s.inRange address (w.bytes n) then .next (s.store address w v)
  else raiseFault s (.memoryOutOfRange address.toNat (w.bytes n))

/-- A push on the upward stack at x[p]: write at x[p], then add the size (44_2op_integer.md R281). -/
def pushValue (s : Mach n) (p : Reg) (w : Width) (v : Word n) : MachResult n :=
  if s.inRange (s.reg p) (w.bytes n) then
    .next ((s.store (s.reg p) w v).setReg p (s.reg p + BitVec.ofNat n.bits (w.bytes n)))
  else raiseFault s (.memoryOutOfRange (s.reg p).toNat (w.bytes n))

/-- The address of the top element: the pointer minus the size (R281). -/
def Mach.topAddress (s : Mach n) (p : Reg) (w : Width) : Word n :=
  s.reg p - BitVec.ofNat n.bits (w.bytes n)

/-- A pop into x[a]: read the top element, clear its bytes, leave the pointer at it; refused when datum and pointer are
one register (R281, R295, R37). DESIGN CHOICE, UNSAFE, log 20: at pointer 0 with MEMSIZE = 2^n (R6) it pops the top bytes
of memory, as the Faults lines of R295 to R301 and R67 say; the notes of those rules say that it faults. -/
def popReg (s : Mach n) (a p : Reg) (w : Width) (e : Extension) : MachResult n :=
  if a = p then .refused .coincidingDestinations
  else if s.inRange (s.topAddress p w) (w.bytes n) then
    .next (((s.store (s.topAddress p w) w 0).setReg a (s.load (s.topAddress p w) w e)).setReg p (s.topAddress p w))
  else raiseFault s (.memoryOutOfRange (s.topAddress p w).toNat (w.bytes n))

/-- A pop into pc, which clears nothing (45_1op.md R336, R338). -/
def popPc (s : Mach n) (p : Reg) : MachResult n :=
  if s.inRange (s.topAddress p .register) n.bytes then
    .next ((s.setPc (s.load (s.topAddress p .register) .register .zero)).setReg p (s.topAddress p .register))
  else raiseFault s (.memoryOutOfRange (s.topAddress p .register).toNat n.bytes)

/-- A call: push pc at x[p], then go to the target (R290, R395). -/
def callTo (s : Mach n) (p : Reg) (target : Word n) : MachResult n :=
  if s.inRange (s.reg p) n.bytes then
    .next (((s.store (s.reg p) .register s.pc).setReg p
      (s.reg p + BitVec.ofNat n.bits n.bytes)).setPc target)
  else raiseFault s (.memoryOutOfRange (s.reg p).toNat n.bytes)

/-- BRANCH: store pc at x[p] without moving the pointer, then go to the target (R289). -/
def branchTo (s : Mach n) (p : Reg) (target : Word n) : MachResult n :=
  if s.inRange (s.reg p) n.bytes then .next ((s.store (s.reg p) .register s.pc).setPc target)
  else raiseFault s (.memoryOutOfRange (s.reg p).toNat n.bytes)

/-- Quotient and remainder in two registers, or the division's fault (R167, R503, R504, R514: the refusal comes first). -/
def divideInto (s : Mach n) (a b : Reg) (r : Except Fault (Word n × Word n)) : MachResult n :=
  if a = b then .refused .coincidingDestinations
  else match r with
    | .error f => raiseFault s f
    | .ok qr => .next ((s.setReg a qr.1).setReg b qr.2)

/-- One half of a division in one register, or its fault (R192 to R195). -/
def divideHalf (s : Mach n) (a : Reg) (r : Except Fault (Word n × Word n)) (half : Word n × Word n → Word n) : MachResult n :=
  match r with
  | .error f => raiseFault s f
  | .ok qr => writeReg s a (half qr)

/-! ### Devices (48_halcode.md R431 to R438) -/

/-- Device(v): the whole register names the device (R434). -/
def deviceOf (v : Word n) : Option Device :=
  if v = 0x00000000 then some .tty
  else if v = 0x00001100 then some (.tape .tape1)
  else if v = 0x00001101 then some (.tape .tape2)
  else none

/-- The tape of an ID. -/
def Mach.tape (s : Mach n) (t : TapeId) : Tape :=
  match t with
  | .tape1 => s.tape1
  | .tape2 => s.tape2

/-- Replaces the tape of an ID. -/
def Mach.setTape (s : Mach n) (t : TapeId) (v : Tape) : Mach n :=
  match t with
  | .tape1 => { s with tape1 := v }
  | .tape2 => { s with tape2 := v }

/-- Replaces the keyboard/tty. -/
def Mach.setTty (s : Mach n) (v : Tty) : Mach n :=
  { s with tty := v }

/-- The least index of a byte that is not 0x00, or the length (R433). -/
def firstNonZero (cells : List Byte) : Nat :=
  match cells with
  | [] => 0
  | c :: rest => if c = 0 then firstNonZero rest + 1 else 0

/-- The least index of a byte 0x00, or the length (R433). -/
def firstZero (cells : List Byte) : Nat :=
  match cells with
  | [] => 0
  | c :: rest => if c = 0 then 0 else firstZero rest + 1

/-- The cells with a byte at a position, padded with 0x00 up to it (R445). -/
def putCell (cells : List Byte) (pos : Nat) (b : Byte) : List Byte :=
  match pos, cells with
  | 0, [] => [b]
  | 0, _ :: rest => b :: rest
  | pos + 1, [] => 0 :: putCell [] pos b
  | pos + 1, c :: rest => c :: putCell rest pos b

/-- A HALCODE that only positions or closes a tape: the device named by the register value, no effect on the tty
(R434, R437). -/
def onTape (s : Mach n) (v : Word n) (f : Tape → Tape) : MachResult n :=
  match deviceOf v with
  | none => raiseFault s (.invalidDevice v.toNat)
  | some .tty => .next s
  | some (.tape t) => .next (s.setTape t (f (s.tape t)))

/-- FSEEK: moves a tape's head by a signed count, not before the tape's start (R443, 60_exceptions.md R508). -/
def seekTape (s : Mach n) (v : Word n) (count : Int) : MachResult n :=
  match deviceOf v with
  | none => raiseFault s (.invalidDevice v.toNat)
  | some .tty => .next s
  | some (.tape t) =>
    if (s.tape t).pos + count < 0 then raiseFault s (.seekOutOfRange v.toNat ((s.tape t).pos + count))
    else .next (s.setTape t { s.tape t with pos := ((s.tape t).pos + count).toNat })

/-- FGETC: one byte, zero-extended, into a register; FGETC_EOF when none is left (R444, R437, log 7). -/
def getByte (s : Mach n) (v : Word n) (a : Reg) : MachResult n :=
  match deviceOf v with
  | none => raiseFault s (.invalidDevice v.toNat)
  | some .tty =>
    match s.tty.input with
    | [] => .next (s.setReg a Config.fgetcEof)
    | b :: rest => .next ((s.setTty { s.tty with input := rest }).setReg a (b.zeroExtend n.bits))
  | some (.tape t) =>
    if (s.tape t).mode = .reading then
      match (s.tape t).cells[(s.tape t).pos]? with
      | none => .next (s.setReg a Config.fgetcEof)
      | some b =>
        .next ((s.setTape t { s.tape t with pos := (s.tape t).pos + 1 }).setReg a (b.zeroExtend n.bits))
    else raiseFault s (.deviceNotOpen v.toNat)

/-- FPUTC: one byte to a device; on a tape the gap up to the head is padded with 0x00 (R445, R437). -/
def putByte (s : Mach n) (v : Word n) (b : Byte) : MachResult n :=
  match deviceOf v with
  | none => raiseFault s (.invalidDevice v.toNat)
  | some .tty => .next (s.setTty { s.tty with output := s.tty.output ++ [b] })
  | some (.tape t) =>
    if (s.tape t).mode = .writing then
      .next (s.setTape t { s.tape t with
        cells := putCell (s.tape t).cells (s.tape t).pos b
        pos := (s.tape t).pos + 1 })
    else raiseFault s (.deviceNotOpen v.toNat)

end Sys2Proof.Machine
end

