-- ==== Sys2Proof/Machine/Operands.lean ====
section
/-!
DEFINITION. Operands: the immediates (30_encoding.md R102, R103) and the effective addresses (20_memory.md R66,
43_3op_integer_mem_jump.md R240, 46_2opi_integer.md R350, 47_1opi_0opi.md R381), all modulo 2^n.
-/

namespace Sys2Proof.Machine

variable {n : Xlen}

/-- sext_n(imm16): the default (R102). -/
def sextImm (imm : Imm16) : Word n :=
  imm.signExtend n.bits

/-- zext_n(imm16): the eight encodings under a U mark (R103). -/
def zextImm (imm : Imm16) : Word n :=
  imm.zeroExtend n.bits

/-- Indexed: (x[b] + x[c]) mod 2^n (R240). -/
def Mach.indexed (s : Mach n) (b c : Reg) : Word n :=
  s.reg b + s.reg c

/-- Based: (x[b] + sext_n(imm16)) mod 2^n (R350). -/
def Mach.based (s : Mach n) (b : Reg) (imm : Imm16) : Word n :=
  s.reg b + sextImm imm

/-- Relative: (pc + sext_n(imm16)) mod 2^n, pc being the address of the next word (R381, 10_state.md R33). -/
def Mach.relative (s : Mach n) (imm : Imm16) : Word n :=
  s.pc + sextImm imm

/-- The count of a shift by an immediate: "min(u(sext_n(imm16)), n)" (R398). -/
def shiftCountImm (n : Xlen) (imm : Imm16) : Nat :=
  shiftCount (sextImm (n := n) imm)

end Sys2Proof.Machine
end

