-- ==== Sys2Proof/Machine/FourOp.lean ====
section
/-!
DEFINITION. FourOp: the meanings of the 4OP integer group (41_4op_integer.md R153 to R172).
The state a meaning is given has pc at the word after the instruction (10_state.md R33); every operand is read from
that state, before any write (R36). A meaning is one operation on the machine at its own XLEN (00_scope.md R5).
-/

namespace Sys2Proof.Machine

/-- `ADD.CI a b c d`: signed add with carry in (R153). -/
def execAddCi (a b c d : Reg) (s : State) : Result :=
  s.apply fun m => writeReg m a (addCarry (m.reg b) (m.reg c) (testBits (m.reg d) carryBit))

/-- `ADD.CO a b c d`: signed add with carry out (R154). -/
def execAddCo (a b c d : Reg) (s : State) : Result :=
  s.apply fun m =>
    writePair m a d (addCarry (m.reg b) (m.reg c) false)
      (putBits (m.reg d) carryBit (carrySigned (m.reg b) (m.reg c) false))

/-- `ADD.CIO a b c d`: signed add with carry in and carry out (R155). -/
def execAddCio (a b c d : Reg) (s : State) : Result :=
  s.apply fun m =>
    writePair m a d (addCarry (m.reg b) (m.reg c) (testBits (m.reg d) carryBit))
      (putBits (m.reg d) carryBit (carrySigned (m.reg b) (m.reg c) (testBits (m.reg d) carryBit)))

/-- `ADDU.CI a b c d`: unsigned add with carry in (R156). -/
def execAdduCi (a b c d : Reg) (s : State) : Result :=
  s.apply fun m => writeReg m a (addCarry (m.reg b) (m.reg c) (testBits (m.reg d) carryBit))

/-- `ADDU.CO a b c d`: unsigned add with carry out (R157). -/
def execAdduCo (a b c d : Reg) (s : State) : Result :=
  s.apply fun m =>
    writePair m a d (addCarry (m.reg b) (m.reg c) false)
      (putBits (m.reg d) carryBit (carryUnsigned (m.reg b) (m.reg c) false))

/-- `ADDU.CIO a b c d`: unsigned add with carry in and carry out (R158). -/
def execAdduCio (a b c d : Reg) (s : State) : Result :=
  s.apply fun m =>
    writePair m a d (addCarry (m.reg b) (m.reg c) (testBits (m.reg d) carryBit))
      (putBits (m.reg d) carryBit (carryUnsigned (m.reg b) (m.reg c) (testBits (m.reg d) carryBit)))

/-- `SUB.BI a b c d`: signed subtract with borrow in (R159). -/
def execSubBi (a b c d : Reg) (s : State) : Result :=
  s.apply fun m => writeReg m a (subBorrow (m.reg b) (m.reg c) (testBits (m.reg d) borrowBit))

/-- `SUB.BO a b c d`: signed subtract with borrow out (R160). -/
def execSubBo (a b c d : Reg) (s : State) : Result :=
  s.apply fun m =>
    writePair m a d (subBorrow (m.reg b) (m.reg c) false)
      (putBits (m.reg d) borrowBit (borrowSigned (m.reg b) (m.reg c) false))

/-- `SUB.BIO a b c d`: signed subtract with borrow in and borrow out (R161). -/
def execSubBio (a b c d : Reg) (s : State) : Result :=
  s.apply fun m =>
    writePair m a d (subBorrow (m.reg b) (m.reg c) (testBits (m.reg d) borrowBit))
      (putBits (m.reg d) borrowBit (borrowSigned (m.reg b) (m.reg c) (testBits (m.reg d) borrowBit)))

/-- `SUBU.BI a b c d`: unsigned subtract with borrow in (R162). -/
def execSubuBi (a b c d : Reg) (s : State) : Result :=
  s.apply fun m => writeReg m a (subBorrow (m.reg b) (m.reg c) (testBits (m.reg d) borrowBit))

/-- `SUBU.BO a b c d`: unsigned subtract with borrow out (R163). -/
def execSubuBo (a b c d : Reg) (s : State) : Result :=
  s.apply fun m =>
    writePair m a d (subBorrow (m.reg b) (m.reg c) false)
      (putBits (m.reg d) borrowBit (borrowUnsigned (m.reg b) (m.reg c) false))

/-- `SUBU.BIO a b c d`: unsigned subtract with borrow in and borrow out (R164). -/
def execSubuBio (a b c d : Reg) (s : State) : Result :=
  s.apply fun m =>
    writePair m a d (subBorrow (m.reg b) (m.reg c) (testBits (m.reg d) borrowBit))
      (putBits (m.reg d) borrowBit (borrowUnsigned (m.reg b) (m.reg c) (testBits (m.reg d) borrowBit)))

/-- `MULTIPLY a b c d`: signed full multiply, 2n-bit product in two registers (R165). -/
def execMultiply (a b c d : Reg) (s : State) : Result :=
  s.apply fun m => writePair m a b (mulLow (m.reg c) (m.reg d)) (mulHighSigned (m.reg c) (m.reg d))

/-- `MULTIPLYU a b c d`: unsigned full multiply, 2n-bit product in two registers (R166). -/
def execMultiplyu (a b c d : Reg) (s : State) : Result :=
  s.apply fun m => writePair m a b (mulLow (m.reg c) (m.reg d)) (mulHighUnsigned (m.reg c) (m.reg d))

/-- `DIVIDE a b c d`: signed divide giving quotient and remainder (R167). -/
def execDivide (a b c d : Reg) (s : State) : Result :=
  s.apply fun m => divideInto m a b (divideSigned (m.reg c) (m.reg d))

/-- `DIVIDEU a b c d`: unsigned divide giving quotient and remainder (R168). -/
def execDivideu (a b c d : Reg) (s : State) : Result :=
  s.apply fun m => divideInto m a b (divideUnsigned (m.reg c) (m.reg d))

/-- `MUX a b c d`: bitwise multiplexer, x[b] selects x[d] where 1 (R169). -/
def execMux (a b c d : Reg) (s : State) : Result :=
  s.apply fun m => writeReg m a (muxBits (m.reg b) (m.reg c) (m.reg d))

/-- `NMUX a b c d`: bitwise multiplexer with inverted selector, x[b] selects x[c] where 1 (R170). -/
def execNmux (a b c d : Reg) (s : State) : Result :=
  s.apply fun m => writeReg m a (muxBits (m.reg b) (m.reg d) (m.reg c))

/-- `SORT a b c d`: signed sort of two values (R171). -/
def execSort (a b c d : Reg) (s : State) : Result :=
  s.apply fun m => writePair m a b (maxSigned (m.reg c) (m.reg d)) (minSigned (m.reg c) (m.reg d))

/-- `SORTU a b c d`: unsigned sort of two values (R172). -/
def execSortu (a b c d : Reg) (s : State) : Result :=
  s.apply fun m => writePair m a b (maxUnsigned (m.reg c) (m.reg d)) (minUnsigned (m.reg c) (m.reg d))

end Sys2Proof.Machine
end

