-- ==== Sys2Proof/Machine/Halcode.lean ====
section
/-!
DEFINITION. Halcode: the meanings of the HALCODE group (48_halcode.md R439 to R445).
The state a meaning is given has pc at the word after the instruction (10_state.md R33); every operand is read from
that state, before any write (R36). A meaning is one operation on the machine at its own XLEN (00_scope.md R5).
-/

namespace Sys2Proof.Machine

/-- `FOPEN_READ`: open a device for reading (R439). -/
def execFopenRead (s : State) : Result :=
  s.apply fun m => onTape m (m.reg 0) fun t => { t with mode := .reading, pos := firstNonZero t.cells }

/-- `FOPEN_WRITE`: open a device for writing (R440). -/
def execFopenWrite (s : State) : Result :=
  s.apply fun m => onTape m (m.reg 0) fun t => { t with mode := .writing, pos := firstZero t.cells }

/-- `FCLOSE`: close a device (R441). -/
def execFclose (s : State) : Result :=
  s.apply fun m => onTape m (m.reg 0) fun t => { t with mode := .closed }

/-- `REWIND`: rewind a tape (R442). -/
def execRewind (s : State) : Result :=
  s.apply fun m => onTape m (m.reg 0) fun t => { t with pos := firstNonZero t.cells }

/-- `FSEEK`: move a tape's position by a signed byte count (R443). -/
def execFseek (s : State) : Result :=
  s.apply fun m => seekTape m (m.reg 0) (m.reg 1).toInt

/-- `FGETC`: read one byte from a device (R444). (log 7) -/
def execFgetc (s : State) : Result :=
  s.apply fun m => getByte m (m.reg 1) 0

/-- `FPUTC`: write one byte to a device (R445). -/
def execFputc (s : State) : Result :=
  s.apply fun m => putByte m (m.reg 1) ((m.reg 0).setWidth 8)

end Sys2Proof.Machine
end

