-- ==== Sys2Proof/Machine/HighImm.lean ====
section
/-!
DEFINITION. HighImm: the meanings of the CMPSKIPI, bit optimization and CMPJUMPI groups (49_high_immediate_groups.md R461 to R486).
The state a meaning is given has pc at the word after the instruction (10_state.md R33); every operand is read from
that state, before any write (R36). A meaning is one operation on the machine at its own XLEN (00_scope.md R5).
-/

namespace Sys2Proof.Machine

/-- `CMPSKIPI.G a ii ii`: signed compare register with immediate, skip the next instruction if G (R461). -/
def execCmpskipiG (a : Reg) (imm : Imm16) (s : State) : Result :=
  s.apply fun m => skipIf m (relSigned .g (m.reg a) (sextImm imm))

/-- `CMPSKIPI.GE a ii ii`: signed compare register with immediate, skip the next instruction if GE (R462). -/
def execCmpskipiGe (a : Reg) (imm : Imm16) (s : State) : Result :=
  s.apply fun m => skipIf m (relSigned .ge (m.reg a) (sextImm imm))

/-- `CMPSKIPI.E a ii ii`: signed compare register with immediate, skip the next instruction if E (R463). -/
def execCmpskipiE (a : Reg) (imm : Imm16) (s : State) : Result :=
  s.apply fun m => skipIf m (relSigned .e (m.reg a) (sextImm imm))

/-- `CMPSKIPI.NE a ii ii`: signed compare register with immediate, skip the next instruction if NE (R464). -/
def execCmpskipiNe (a : Reg) (imm : Imm16) (s : State) : Result :=
  s.apply fun m => skipIf m (relSigned .ne (m.reg a) (sextImm imm))

/-- `CMPSKIPI.LE a ii ii`: signed compare register with immediate, skip the next instruction if LE (R465). -/
def execCmpskipiLe (a : Reg) (imm : Imm16) (s : State) : Result :=
  s.apply fun m => skipIf m (relSigned .le (m.reg a) (sextImm imm))

/-- `CMPSKIPI.L a ii ii`: signed compare register with immediate, skip the next instruction if L (R466). -/
def execCmpskipiL (a : Reg) (imm : Imm16) (s : State) : Result :=
  s.apply fun m => skipIf m (relSigned .l (m.reg a) (sextImm imm))

/-- `CMPSKIPUI.G a ii ii`: unsigned compare register with immediate, skip the next instruction if G (R467). -/
def execCmpskipuiG (a : Reg) (imm : Imm16) (s : State) : Result :=
  s.apply fun m => skipIf m (relUnsigned .g (m.reg a) (zextImm imm))

/-- `CMPSKIPUI.GE a ii ii`: unsigned compare register with immediate, skip the next instruction if GE (R468). -/
def execCmpskipuiGe (a : Reg) (imm : Imm16) (s : State) : Result :=
  s.apply fun m => skipIf m (relUnsigned .ge (m.reg a) (zextImm imm))

/-- `CMPSKIPUI.LE a ii ii`: unsigned compare register with immediate, skip the next instruction if LE (R469). -/
def execCmpskipuiLe (a : Reg) (imm : Imm16) (s : State) : Result :=
  s.apply fun m => skipIf m (relUnsigned .le (m.reg a) (zextImm imm))

/-- `CMPSKIPUI.L a ii ii`: unsigned compare register with immediate, skip the next instruction if L (R470). -/
def execCmpskipuiL (a : Reg) (imm : Imm16) (s : State) : Result :=
  s.apply fun m => skipIf m (relUnsigned .l (m.reg a) (zextImm imm))

/-- `ANDI a b ii ii`: bitwise and with immediate (R471). -/
def execAndi (a b : Reg) (imm : Imm16) (s : State) : Result :=
  s.apply fun m => writeReg m a (m.reg b &&& sextImm imm)

/-- `ORI a b ii ii`: bitwise or with immediate (R472). -/
def execOri (a b : Reg) (imm : Imm16) (s : State) : Result :=
  s.apply fun m => writeReg m a (m.reg b ||| sextImm imm)

/-- `XORI a b ii ii`: bitwise exclusive or with immediate (R473). -/
def execXori (a b : Reg) (imm : Imm16) (s : State) : Result :=
  s.apply fun m => writeReg m a (m.reg b ^^^ sextImm imm)

/-- `NANDI a b ii ii`: bitwise not-and with immediate (R474). -/
def execNandi (a b : Reg) (imm : Imm16) (s : State) : Result :=
  s.apply fun m => writeReg m a (~~~(m.reg b &&& sextImm imm))

/-- `NORI a b ii ii`: bitwise not-or with immediate (R475). -/
def execNori (a b : Reg) (imm : Imm16) (s : State) : Result :=
  s.apply fun m => writeReg m a (~~~(m.reg b ||| sextImm imm))

/-- `XNORI a b ii ii`: bitwise equivalence with immediate (R476). -/
def execXnori (a b : Reg) (imm : Imm16) (s : State) : Result :=
  s.apply fun m => writeReg m a (~~~(m.reg b ^^^ sextImm imm))

/-- `CMPJUMPI.G a b ii ii`: signed compare two registers, jump relative if G (R477). -/
def execCmpjumpiG (a b : Reg) (imm : Imm16) (s : State) : Result :=
  s.apply fun m => jumpIf m (relSigned .g (m.reg a) (m.reg b)) (m.relative imm)

/-- `CMPJUMPI.GE a b ii ii`: signed compare two registers, jump relative if GE (R478). -/
def execCmpjumpiGe (a b : Reg) (imm : Imm16) (s : State) : Result :=
  s.apply fun m => jumpIf m (relSigned .ge (m.reg a) (m.reg b)) (m.relative imm)

/-- `CMPJUMPI.E a b ii ii`: signed compare two registers, jump relative if E (R479). -/
def execCmpjumpiE (a b : Reg) (imm : Imm16) (s : State) : Result :=
  s.apply fun m => jumpIf m (relSigned .e (m.reg a) (m.reg b)) (m.relative imm)

/-- `CMPJUMPI.NE a b ii ii`: signed compare two registers, jump relative if NE (R480). -/
def execCmpjumpiNe (a b : Reg) (imm : Imm16) (s : State) : Result :=
  s.apply fun m => jumpIf m (relSigned .ne (m.reg a) (m.reg b)) (m.relative imm)

/-- `CMPJUMPI.LE a b ii ii`: signed compare two registers, jump relative if LE (R481). -/
def execCmpjumpiLe (a b : Reg) (imm : Imm16) (s : State) : Result :=
  s.apply fun m => jumpIf m (relSigned .le (m.reg a) (m.reg b)) (m.relative imm)

/-- `CMPJUMPI.L a b ii ii`: signed compare two registers, jump relative if L (R482). -/
def execCmpjumpiL (a b : Reg) (imm : Imm16) (s : State) : Result :=
  s.apply fun m => jumpIf m (relSigned .l (m.reg a) (m.reg b)) (m.relative imm)

/-- `CMPJUMPUI.G a b ii ii`: unsigned compare two registers, jump relative if G (R483). -/
def execCmpjumpuiG (a b : Reg) (imm : Imm16) (s : State) : Result :=
  s.apply fun m => jumpIf m (relUnsigned .g (m.reg a) (m.reg b)) (m.relative imm)

/-- `CMPJUMPUI.GE a b ii ii`: unsigned compare two registers, jump relative if GE (R484). -/
def execCmpjumpuiGe (a b : Reg) (imm : Imm16) (s : State) : Result :=
  s.apply fun m => jumpIf m (relUnsigned .ge (m.reg a) (m.reg b)) (m.relative imm)

/-- `CMPJUMPUI.LE a b ii ii`: unsigned compare two registers, jump relative if LE (R485). -/
def execCmpjumpuiLe (a b : Reg) (imm : Imm16) (s : State) : Result :=
  s.apply fun m => jumpIf m (relUnsigned .le (m.reg a) (m.reg b)) (m.relative imm)

/-- `CMPJUMPUI.L a b ii ii`: unsigned compare two registers, jump relative if L (R486). -/
def execCmpjumpuiL (a b : Reg) (imm : Imm16) (s : State) : Result :=
  s.apply fun m => jumpIf m (relUnsigned .l (m.reg a) (m.reg b)) (m.relative imm)

end Sys2Proof.Machine
end

