-- ==== Sys2Proof/Machine/NopHalt.lean ====
section
/-!
DEFINITION. NopHalt: the meanings of NOP and HALT (40_nop_halt.md R140, R141).
The state a meaning is given has pc at the word after the instruction (10_state.md R33); every operand is read from
that state, before any write (R36). A meaning is one operation on the machine at its own XLEN (00_scope.md R5).
-/

namespace Sys2Proof.Machine

/-- `NOP`: no operation (R140). -/
def execNop (_ignored : BitVec 24) (s : State) : Result :=
  s.apply fun m => .next m

/-- `HALT`: stop the machine (R141). -/
def execHalt (_ignored : BitVec 24) (s : State) : Result :=
  s.apply fun m => .next (m.setStatus .halted)

end Sys2Proof.Machine
end

