-- ==== Sys2Proof/Machine/OneOp.lean ====
section
/-!
DEFINITION. OneOp: the meanings of the 1OP group (45_1op.md R331 to R338).
The state a meaning is given has pc at the word after the instruction (10_state.md R33); every operand is read from
that state, before any write (R36). A meaning is one operation on the machine at its own XLEN (00_scope.md R5).
-/

namespace Sys2Proof.Machine

/-- `READPC a`: read the program counter (R331). -/
def execReadpc (a : Reg) (s : State) : Result :=
  s.apply fun m => writeReg m a (m.pc)

/-- `READSCID a`: read the SCID value (R332). (log 3) -/
def execReadscid (a : Reg) (s : State) : Result :=
  s.apply fun m => writeReg m a (Config.scid)

/-- `FALSE a`: clear a register (R333). -/
def execSetFalse (a : Reg) (s : State) : Result :=
  s.apply fun m => writeReg m a (0)

/-- `TRUE a`: set a register to all ones (R334). -/
def execSetTrue (a : Reg) (s : State) : Result :=
  s.apply fun m => writeReg m a (BitVec.allOnes _)

/-- `JSR_COROUTINE a`: jump to the address in a register (R335). -/
def execJsrCoroutine (a : Reg) (s : State) : Result :=
  s.apply fun m => .next (m.setPc (m.reg a))

/-- `RET a`: pop the return address from the stack at a (R336). -/
def execRet (a : Reg) (s : State) : Result :=
  s.apply fun m => popPc m a

/-- `PUSHPC a`: push the program counter (R337). -/
def execPushpc (a : Reg) (s : State) : Result :=
  s.apply fun m => pushValue m a .register m.pc

/-- `POPPC a`: pop the program counter (R338). -/
def execPoppc (a : Reg) (s : State) : Result :=
  s.apply fun m => popPc m a

end Sys2Proof.Machine
end

