-- ==== Sys2Proof/Machine/OneOpImm.lean ====
section
/-!
DEFINITION. OneOpImm: the meanings of the 1OPI groups and the 0OPI group (47_1opi_0opi.md R382 to R415).
The state a meaning is given has pc at the word after the instruction (10_state.md R33); every operand is read from
that state, before any write (R36). A meaning is one operation on the machine at its own XLEN (00_scope.md R5).
-/

namespace Sys2Proof.Machine

/-- `JUMP.C a ii ii`: jump relative if carry bit set (R382). -/
def execJumpC (a : Reg) (imm : Imm16) (s : State) : Result :=
  s.apply fun m => jumpIf m (testBits (m.reg a) carryBit) (m.relative imm)

/-- `JUMP.B a ii ii`: jump relative if borrow bit set (R383). -/
def execJumpB (a : Reg) (imm : Imm16) (s : State) : Result :=
  s.apply fun m => jumpIf m (testBits (m.reg a) borrowBit) (m.relative imm)

/-- `JUMP.O a ii ii`: jump relative if overflow bit set (R384). -/
def execJumpO (a : Reg) (imm : Imm16) (s : State) : Result :=
  s.apply fun m => jumpIf m (testBits (m.reg a) overflowBit) (m.relative imm)

/-- `JUMP.G a ii ii`: jump relative if greater-than bit set (R385). -/
def execJumpG (a : Reg) (imm : Imm16) (s : State) : Result :=
  s.apply fun m => jumpIf m (testBits (m.reg a) greaterBit) (m.relative imm)

/-- `JUMP.GE a ii ii`: jump relative if greater-than or equal bit set (R386). -/
def execJumpGe (a : Reg) (imm : Imm16) (s : State) : Result :=
  s.apply fun m => jumpIf m (testBits (m.reg a) (greaterBit ||| equalBit)) (m.relative imm)

/-- `JUMP.E a ii ii`: jump relative if equal bit set (R387). -/
def execJumpE (a : Reg) (imm : Imm16) (s : State) : Result :=
  s.apply fun m => jumpIf m (testBits (m.reg a) equalBit) (m.relative imm)

/-- `JUMP.NE a ii ii`: jump relative if equal bit clear (R388). -/
def execJumpNe (a : Reg) (imm : Imm16) (s : State) : Result :=
  s.apply fun m => jumpIf m (!testBits (m.reg a) equalBit) (m.relative imm)

/-- `JUMP.LE a ii ii`: jump relative if less-than or equal bit set (R389). -/
def execJumpLe (a : Reg) (imm : Imm16) (s : State) : Result :=
  s.apply fun m => jumpIf m (testBits (m.reg a) (lessBit ||| equalBit)) (m.relative imm)

/-- `JUMP.L a ii ii`: jump relative if less-than bit set (R390). -/
def execJumpL (a : Reg) (imm : Imm16) (s : State) : Result :=
  s.apply fun m => jumpIf m (testBits (m.reg a) lessBit) (m.relative imm)

/-- `JUMP.Z a ii ii`: jump relative if register is zero (R391). -/
def execJumpZ (a : Reg) (imm : Imm16) (s : State) : Result :=
  s.apply fun m => jumpIf m (m.reg a == 0) (m.relative imm)

/-- `JUMP.NZ a ii ii`: jump relative if register is not zero (R392). -/
def execJumpNz (a : Reg) (imm : Imm16) (s : State) : Result :=
  s.apply fun m => jumpIf m (m.reg a != 0) (m.relative imm)

/-- `JUMP.P a ii ii`: jump relative if register is non-negative (sign bit clear) (R393). -/
def execJumpP (a : Reg) (imm : Imm16) (s : State) : Result :=
  s.apply fun m => jumpIf m (decide (0 ≤ (m.reg a).toInt)) (m.relative imm)

/-- `JUMP.NP a ii ii`: jump relative if register is negative (sign bit set) (R394). -/
def execJumpNp (a : Reg) (imm : Imm16) (s : State) : Result :=
  s.apply fun m => jumpIf m (decide ((m.reg a).toInt < 0)) (m.relative imm)

/-- `CALLI a ii ii`: push the return address on the stack at a and jump relative (R395). -/
def execCalli (a : Reg) (imm : Imm16) (s : State) : Result :=
  s.apply fun m => callTo m a (m.relative imm)

/-- `LOADI a ii ii`: load sign-extended immediate (R396). -/
def execLoadi (a : Reg) (imm : Imm16) (s : State) : Result :=
  s.apply fun m => writeReg m a (sextImm imm)

/-- `LOADUI a ii ii`: load zero-extended immediate (R397). -/
def execLoadui (a : Reg) (imm : Imm16) (s : State) : Result :=
  s.apply fun m => writeReg m a (zextImm imm)

/-- `SALI a ii ii`: shift left arithmetic by immediate (R398). -/
def execSali (a : Reg) (imm : Imm16) (s : State) : Result :=
  s.apply fun m => writeReg m a (shiftLeft0 (m.reg a) (shiftCountImm s.xlen imm))

/-- `SARI a ii ii`: shift right arithmetic by immediate (R399). -/
def execSari (a : Reg) (imm : Imm16) (s : State) : Result :=
  s.apply fun m => writeReg m a (shiftRightSign (m.reg a) (shiftCountImm s.xlen imm))

/-- `SL0I a ii ii`: shift left by immediate, fill with zeros (R400). -/
def execSl0i (a : Reg) (imm : Imm16) (s : State) : Result :=
  s.apply fun m => writeReg m a (shiftLeft0 (m.reg a) (shiftCountImm s.xlen imm))

/-- `SR0I a ii ii`: shift right by immediate, fill with zeros (R401). -/
def execSr0i (a : Reg) (imm : Imm16) (s : State) : Result :=
  s.apply fun m => writeReg m a (shiftRight0 (m.reg a) (shiftCountImm s.xlen imm))

/-- `SL1I a ii ii`: shift left by immediate, fill with ones (R402). -/
def execSl1i (a : Reg) (imm : Imm16) (s : State) : Result :=
  s.apply fun m => writeReg m a (shiftLeft1 (m.reg a) (shiftCountImm s.xlen imm))

/-- `SR1I a ii ii`: shift right by immediate, fill with ones (R403). -/
def execSr1i (a : Reg) (imm : Imm16) (s : State) : Result :=
  s.apply fun m => writeReg m a (shiftRight1 (m.reg a) (shiftCountImm s.xlen imm))

/-- `LOADR a ii ii`: load a whole register, pc-relative (R404). -/
def execLoadr (a : Reg) (imm : Imm16) (s : State) : Result :=
  s.apply fun m => loadReg m a (m.relative imm) .register .zero

/-- `LOADR8 a ii ii`: load 8 bits sign-extended, pc-relative (R405). -/
def execLoadr8 (a : Reg) (imm : Imm16) (s : State) : Result :=
  s.apply fun m => loadReg m a (m.relative imm) .bits8 .signed

/-- `LOADRU8 a ii ii`: load 8 bits zero-extended, pc-relative (R406). -/
def execLoadru8 (a : Reg) (imm : Imm16) (s : State) : Result :=
  s.apply fun m => loadReg m a (m.relative imm) .bits8 .zero

/-- `LOADR16 a ii ii`: load 16 bits sign-extended, pc-relative (R407). -/
def execLoadr16 (a : Reg) (imm : Imm16) (s : State) : Result :=
  s.apply fun m => loadReg m a (m.relative imm) .bits16 .signed

/-- `LOADRU16 a ii ii`: load 16 bits zero-extended, pc-relative (R408). -/
def execLoadru16 (a : Reg) (imm : Imm16) (s : State) : Result :=
  s.apply fun m => loadReg m a (m.relative imm) .bits16 .zero

/-- `LOADR32 a ii ii`: load 32 bits sign-extended, pc-relative (R409). -/
def execLoadr32 (a : Reg) (imm : Imm16) (s : State) : Result :=
  s.apply fun m => loadReg m a (m.relative imm) .bits32 .signed

/-- `LOADRU32 a ii ii`: load 32 bits zero-extended, pc-relative (R410). -/
def execLoadru32 (a : Reg) (imm : Imm16) (s : State) : Result :=
  s.apply fun m => loadReg m a (m.relative imm) .bits32 .zero

/-- `STORER a ii ii`: store a whole register, pc-relative (R411). -/
def execStorer (a : Reg) (imm : Imm16) (s : State) : Result :=
  s.apply fun m => storeValue m (m.relative imm) .register (m.reg a)

/-- `STORER8 a ii ii`: store the low 8 bits, pc-relative (R412). -/
def execStorer8 (a : Reg) (imm : Imm16) (s : State) : Result :=
  s.apply fun m => storeValue m (m.relative imm) .bits8 (m.reg a)

/-- `STORER16 a ii ii`: store the low 16 bits, pc-relative (R413). -/
def execStorer16 (a : Reg) (imm : Imm16) (s : State) : Result :=
  s.apply fun m => storeValue m (m.relative imm) .bits16 (m.reg a)

/-- `STORER32 a ii ii`: store the low 32 bits, pc-relative (R414). -/
def execStorer32 (a : Reg) (imm : Imm16) (s : State) : Result :=
  s.apply fun m => storeValue m (m.relative imm) .bits32 (m.reg a)

/-- `JUMP ii ii`: jump relative, unconditional (R415). -/
def execJump (imm : Imm16) (s : State) : Result :=
  s.apply fun m => .next (m.setPc (m.relative imm))

end Sys2Proof.Machine
end

