-- ==== Sys2Proof/Machine/ThreeOpAlu.lean ====
section
/-!
DEFINITION. ThreeOpAlu: the meanings of the arithmetic, logic and shift instructions of the 3OP integer group (42_3op_integer_alu.md R182 to R225).
The state a meaning is given has pc at the word after the instruction (10_state.md R33); every operand is read from
that state, before any write (R36). A meaning is one operation on the machine at its own XLEN (00_scope.md R5).
-/

namespace Sys2Proof.Machine

/-- `ADD a b c`: add (R182). -/
def execAdd (a b c : Reg) (s : State) : Result :=
  s.apply fun m => writeReg m a (m.reg b + m.reg c)

/-- `ADDU a b c`: add, unsigned mark (R183). -/
def execAddu (a b c : Reg) (s : State) : Result :=
  s.apply fun m => writeReg m a (m.reg b + m.reg c)

/-- `SUB a b c`: subtract (R184). -/
def execSub (a b c : Reg) (s : State) : Result :=
  s.apply fun m => writeReg m a (m.reg b - m.reg c)

/-- `SUBU a b c`: subtract, unsigned mark (R185). -/
def execSubu (a b c : Reg) (s : State) : Result :=
  s.apply fun m => writeReg m a (m.reg b - m.reg c)

/-- `CMP a b c`: signed compare into a condition register (R186). -/
def execCmp (a b c : Reg) (s : State) : Result :=
  s.apply fun m => writeReg m a (compareValue (m.reg b).toInt (m.reg c).toInt)

/-- `CMPU a b c`: unsigned compare into a condition register (R187). -/
def execCmpu (a b c : Reg) (s : State) : Result :=
  s.apply fun m => writeReg m a (compareValue (m.reg b).toNat (m.reg c).toNat)

/-- `MUL a b c`: multiply, low half (R188). -/
def execMul (a b c : Reg) (s : State) : Result :=
  s.apply fun m => writeReg m a (mulLow (m.reg b) (m.reg c))

/-- `MULH a b c`: signed multiply, high half (R189). -/
def execMulh (a b c : Reg) (s : State) : Result :=
  s.apply fun m => writeReg m a (mulHighSigned (m.reg b) (m.reg c))

/-- `MULU a b c`: multiply, low half, unsigned mark (R190). -/
def execMulu (a b c : Reg) (s : State) : Result :=
  s.apply fun m => writeReg m a (mulLow (m.reg b) (m.reg c))

/-- `MULUH a b c`: unsigned multiply, high half (R191). -/
def execMuluh (a b c : Reg) (s : State) : Result :=
  s.apply fun m => writeReg m a (mulHighUnsigned (m.reg b) (m.reg c))

/-- `DIV a b c`: signed quotient (R192). -/
def execDiv (a b c : Reg) (s : State) : Result :=
  s.apply fun m => divideHalf m a (divideSigned (m.reg b) (m.reg c)) Prod.fst

/-- `MOD a b c`: signed remainder (R193). -/
def execMod (a b c : Reg) (s : State) : Result :=
  s.apply fun m => divideHalf m a (divideSigned (m.reg b) (m.reg c)) Prod.snd

/-- `DIVU a b c`: unsigned quotient (R194). -/
def execDivu (a b c : Reg) (s : State) : Result :=
  s.apply fun m => divideHalf m a (divideUnsigned (m.reg b) (m.reg c)) Prod.fst

/-- `MODU a b c`: unsigned remainder (R195). -/
def execModu (a b c : Reg) (s : State) : Result :=
  s.apply fun m => divideHalf m a (divideUnsigned (m.reg b) (m.reg c)) Prod.snd

/-- `MAX a b c`: signed maximum (R196). -/
def execMax (a b c : Reg) (s : State) : Result :=
  s.apply fun m => writeReg m a (maxSigned (m.reg b) (m.reg c))

/-- `MAXU a b c`: unsigned maximum (R197). -/
def execMaxu (a b c : Reg) (s : State) : Result :=
  s.apply fun m => writeReg m a (maxUnsigned (m.reg b) (m.reg c))

/-- `MIN a b c`: signed minimum (R198). -/
def execMin (a b c : Reg) (s : State) : Result :=
  s.apply fun m => writeReg m a (minSigned (m.reg b) (m.reg c))

/-- `MINU a b c`: unsigned minimum (R199). -/
def execMinu (a b c : Reg) (s : State) : Result :=
  s.apply fun m => writeReg m a (minUnsigned (m.reg b) (m.reg c))

/-- `PACK a b c`: pack (semantics lost) (R200). -/
def execPack (_a _b _c : Reg) (_s : State) : Result :=
  .refused .unspecifiedSemantics

/-- `UNPACK a b c`: unpack (semantics lost) (R201). -/
def execUnpack (_a _b _c : Reg) (_s : State) : Result :=
  .refused .unspecifiedSemantics

/-- `PACK8.CO a b c`: pack to 8-bit elements with overload flag (semantics lost) (R202). -/
def execPack8Co (_a _b _c : Reg) (_s : State) : Result :=
  .refused .unspecifiedSemantics

/-- `PACK8U.CO a b c`: pack to 8-bit elements with overload flag (semantics lost) (R203). -/
def execPack8uCo (_a _b _c : Reg) (_s : State) : Result :=
  .refused .unspecifiedSemantics

/-- `PACK16.CO a b c`: pack to 16-bit elements with overload flag (semantics lost) (R204). -/
def execPack16Co (_a _b _c : Reg) (_s : State) : Result :=
  .refused .unspecifiedSemantics

/-- `PACK16U.CO a b c`: pack to 16-bit elements with overload flag (semantics lost) (R205). -/
def execPack16uCo (_a _b _c : Reg) (_s : State) : Result :=
  .refused .unspecifiedSemantics

/-- `PACK32.CO a b c`: pack to 32-bit elements with overload flag (semantics lost) (R206). -/
def execPack32Co (_a _b _c : Reg) (_s : State) : Result :=
  .refused .unspecifiedSemantics

/-- `PACK32U.CO a b c`: pack to 32-bit elements with overload flag (semantics lost) (R207). -/
def execPack32uCo (_a _b _c : Reg) (_s : State) : Result :=
  .refused .unspecifiedSemantics

/-- `AND a b c`: bitwise and (R208). -/
def execAnd (a b c : Reg) (s : State) : Result :=
  s.apply fun m => writeReg m a (m.reg b &&& m.reg c)

/-- `OR a b c`: bitwise or (R209). -/
def execOr (a b c : Reg) (s : State) : Result :=
  s.apply fun m => writeReg m a (m.reg b ||| m.reg c)

/-- `XOR a b c`: bitwise exclusive or (R210). -/
def execXor (a b c : Reg) (s : State) : Result :=
  s.apply fun m => writeReg m a (m.reg b ^^^ m.reg c)

/-- `NAND a b c`: bitwise not-and (R211). -/
def execNand (a b c : Reg) (s : State) : Result :=
  s.apply fun m => writeReg m a (~~~(m.reg b &&& m.reg c))

/-- `NOR a b c`: bitwise not-or (R212). -/
def execNor (a b c : Reg) (s : State) : Result :=
  s.apply fun m => writeReg m a (~~~(m.reg b ||| m.reg c))

/-- `XNOR a b c`: bitwise equivalence (R213). -/
def execXnor (a b c : Reg) (s : State) : Result :=
  s.apply fun m => writeReg m a (~~~(m.reg b ^^^ m.reg c))

/-- `MPQ a b c`: converse nonimplication, NOT P AND Q (R214). -/
def execMpq (a b c : Reg) (s : State) : Result :=
  s.apply fun m => writeReg m a (~~~(m.reg b) &&& m.reg c)

/-- `LPQ a b c`: material nonimplication, P AND NOT Q (R215). -/
def execLpq (a b c : Reg) (s : State) : Result :=
  s.apply fun m => writeReg m a (m.reg b &&& ~~~(m.reg c))

/-- `CPQ a b c`: material implication, NOT P OR Q (R216). -/
def execCpq (a b c : Reg) (s : State) : Result :=
  s.apply fun m => writeReg m a (~~~(m.reg b) ||| m.reg c)

/-- `BPQ a b c`: converse implication, P OR NOT Q (R217). -/
def execBpq (a b c : Reg) (s : State) : Result :=
  s.apply fun m => writeReg m a (m.reg b ||| ~~~(m.reg c))

/-- `SAL a b c`: shift left arithmetic (R218). -/
def execSal (a b c : Reg) (s : State) : Result :=
  s.apply fun m => writeReg m a (shiftLeft0 (m.reg b) (shiftCount (m.reg c)))

/-- `SAR a b c`: shift right arithmetic (R219). -/
def execSar (a b c : Reg) (s : State) : Result :=
  s.apply fun m => writeReg m a (shiftRightSign (m.reg b) (shiftCount (m.reg c)))

/-- `SL0 a b c`: shift left, fill with zeros (R220). -/
def execSl0 (a b c : Reg) (s : State) : Result :=
  s.apply fun m => writeReg m a (shiftLeft0 (m.reg b) (shiftCount (m.reg c)))

/-- `SR0 a b c`: shift right, fill with zeros (R221). -/
def execSr0 (a b c : Reg) (s : State) : Result :=
  s.apply fun m => writeReg m a (shiftRight0 (m.reg b) (shiftCount (m.reg c)))

/-- `SL1 a b c`: shift left, fill with ones (R222). -/
def execSl1 (a b c : Reg) (s : State) : Result :=
  s.apply fun m => writeReg m a (shiftLeft1 (m.reg b) (shiftCount (m.reg c)))

/-- `SR1 a b c`: shift right, fill with ones (R223). -/
def execSr1 (a b c : Reg) (s : State) : Result :=
  s.apply fun m => writeReg m a (shiftRight1 (m.reg b) (shiftCount (m.reg c)))

/-- `ROL a b c`: rotate left (R224). -/
def execRol (a b c : Reg) (s : State) : Result :=
  s.apply fun m => writeReg m a (rotateLeft (m.reg b) (rotateCount (m.reg c)))

/-- `ROR a b c`: rotate right (R225). -/
def execRor (a b c : Reg) (s : State) : Result :=
  s.apply fun m => writeReg m a (rotateRight (m.reg b) (rotateCount (m.reg c)))

end Sys2Proof.Machine
end

