-- ==== Sys2Proof/Machine/ThreeOpMem.lean ====
section
/-!
DEFINITION. ThreeOpMem: the meanings of the indexed loads and stores and the compare-jumps of the 3OP integer group (43_3op_integer_mem_jump.md R242 to R262).
The state a meaning is given has pc at the word after the instruction (10_state.md R33); every operand is read from
that state, before any write (R36). A meaning is one operation on the machine at its own XLEN (00_scope.md R5).
-/

namespace Sys2Proof.Machine

/-- `LOADX a b c`: load a whole register, indexed (R242). -/
def execLoadx (a b c : Reg) (s : State) : Result :=
  s.apply fun m => loadReg m a (m.indexed b c) .register .zero

/-- `LOADX8 a b c`: load 8 bits sign-extended, indexed (R243). -/
def execLoadx8 (a b c : Reg) (s : State) : Result :=
  s.apply fun m => loadReg m a (m.indexed b c) .bits8 .signed

/-- `LOADXU8 a b c`: load 8 bits zero-extended, indexed (R244). -/
def execLoadxu8 (a b c : Reg) (s : State) : Result :=
  s.apply fun m => loadReg m a (m.indexed b c) .bits8 .zero

/-- `LOADX16 a b c`: load 16 bits sign-extended, indexed (R245). -/
def execLoadx16 (a b c : Reg) (s : State) : Result :=
  s.apply fun m => loadReg m a (m.indexed b c) .bits16 .signed

/-- `LOADXU16 a b c`: load 16 bits zero-extended, indexed (R246). -/
def execLoadxu16 (a b c : Reg) (s : State) : Result :=
  s.apply fun m => loadReg m a (m.indexed b c) .bits16 .zero

/-- `LOADX32 a b c`: load 32 bits sign-extended, indexed (R247). -/
def execLoadx32 (a b c : Reg) (s : State) : Result :=
  s.apply fun m => loadReg m a (m.indexed b c) .bits32 .signed

/-- `LOADXU32 a b c`: load 32 bits zero-extended, indexed (R248). -/
def execLoadxu32 (a b c : Reg) (s : State) : Result :=
  s.apply fun m => loadReg m a (m.indexed b c) .bits32 .zero

/-- `STOREX a b c`: store a whole register, indexed (R249). -/
def execStorex (a b c : Reg) (s : State) : Result :=
  s.apply fun m => storeValue m (m.indexed b c) .register (m.reg a)

/-- `STOREX8 a b c`: store the low 8 bits, indexed (R250). -/
def execStorex8 (a b c : Reg) (s : State) : Result :=
  s.apply fun m => storeValue m (m.indexed b c) .bits8 (m.reg a)

/-- `STOREX16 a b c`: store the low 16 bits, indexed (R251). -/
def execStorex16 (a b c : Reg) (s : State) : Result :=
  s.apply fun m => storeValue m (m.indexed b c) .bits16 (m.reg a)

/-- `STOREX32 a b c`: store the low 32 bits, indexed (R252). -/
def execStorex32 (a b c : Reg) (s : State) : Result :=
  s.apply fun m => storeValue m (m.indexed b c) .bits32 (m.reg a)

/-- `CMPJUMP.G a b c`: signed compare two registers, jump to register if G (R253). -/
def execCmpjumpG (a b c : Reg) (s : State) : Result :=
  s.apply fun m => jumpIf m (relSigned .g (m.reg a) (m.reg b)) (m.reg c)

/-- `CMPJUMP.GE a b c`: signed compare two registers, jump to register if GE (R254). -/
def execCmpjumpGe (a b c : Reg) (s : State) : Result :=
  s.apply fun m => jumpIf m (relSigned .ge (m.reg a) (m.reg b)) (m.reg c)

/-- `CMPJUMP.E a b c`: signed compare two registers, jump to register if E (R255). -/
def execCmpjumpE (a b c : Reg) (s : State) : Result :=
  s.apply fun m => jumpIf m (relSigned .e (m.reg a) (m.reg b)) (m.reg c)

/-- `CMPJUMP.NE a b c`: signed compare two registers, jump to register if NE (R256). -/
def execCmpjumpNe (a b c : Reg) (s : State) : Result :=
  s.apply fun m => jumpIf m (relSigned .ne (m.reg a) (m.reg b)) (m.reg c)

/-- `CMPJUMP.LE a b c`: signed compare two registers, jump to register if LE (R257). -/
def execCmpjumpLe (a b c : Reg) (s : State) : Result :=
  s.apply fun m => jumpIf m (relSigned .le (m.reg a) (m.reg b)) (m.reg c)

/-- `CMPJUMP.L a b c`: signed compare two registers, jump to register if L (R258). -/
def execCmpjumpL (a b c : Reg) (s : State) : Result :=
  s.apply fun m => jumpIf m (relSigned .l (m.reg a) (m.reg b)) (m.reg c)

/-- `CMPJUMPU.G a b c`: unsigned compare two registers, jump to register if G (R259). -/
def execCmpjumpuG (a b c : Reg) (s : State) : Result :=
  s.apply fun m => jumpIf m (relUnsigned .g (m.reg a) (m.reg b)) (m.reg c)

/-- `CMPJUMPU.GE a b c`: unsigned compare two registers, jump to register if GE (R260). -/
def execCmpjumpuGe (a b c : Reg) (s : State) : Result :=
  s.apply fun m => jumpIf m (relUnsigned .ge (m.reg a) (m.reg b)) (m.reg c)

/-- `CMPJUMPU.LE a b c`: unsigned compare two registers, jump to register if LE (R261). -/
def execCmpjumpuLe (a b c : Reg) (s : State) : Result :=
  s.apply fun m => jumpIf m (relUnsigned .le (m.reg a) (m.reg b)) (m.reg c)

/-- `CMPJUMPU.L a b c`: unsigned compare two registers, jump to register if L (R262). -/
def execCmpjumpuL (a b c : Reg) (s : State) : Result :=
  s.apply fun m => jumpIf m (relUnsigned .l (m.reg a) (m.reg b)) (m.reg c)

end Sys2Proof.Machine
end

