-- ==== Sys2Proof/Machine/TwoOp.lean ====
section
/-!
DEFINITION. TwoOp: the meanings of the 2OP integer group (44_2op_integer.md R282 to R311).
The state a meaning is given has pc at the word after the instruction (10_state.md R33); every operand is read from
that state, before any write (R36). A meaning is one operation on the machine at its own XLEN (00_scope.md R5).
-/

namespace Sys2Proof.Machine

/-- `NEG a b`: negate a positive value (source formula) (R282). (log 6) -/
def execNeg (a b : Reg) (s : State) : Result :=
  s.apply fun m => writeReg m a (negValue (m.reg b))

/-- `ABS a b`: absolute value (R283). -/
def execAbs (a b : Reg) (s : State) : Result :=
  s.apply fun m => writeReg m a (absValue (m.reg b))

/-- `NABS a b`: negative absolute value (R284). -/
def execNabs (a b : Reg) (s : State) : Result :=
  s.apply fun m => writeReg m a (negAbsValue (m.reg b))

/-- `SWAP a b`: exchange two registers (R285). -/
def execSwap (a b : Reg) (s : State) : Result :=
  s.apply fun m => .next ((m.setReg a (m.reg b)).setReg b (m.reg a))

/-- `COPY a b`: copy a register (R286). -/
def execCopy (a b : Reg) (s : State) : Result :=
  s.apply fun m => writeReg m a (m.reg b)

/-- `MOVE a b`: move a register and clear the source (R287). -/
def execMove (a b : Reg) (s : State) : Result :=
  s.apply fun m => writePair m a b (m.reg b) 0

/-- `NOT a b`: bitwise complement (R288). -/
def execNot (a b : Reg) (s : State) : Result :=
  s.apply fun m => writeReg m a (~~~(m.reg b))

/-- `BRANCH a b`: store the return address at [b] and jump to register, no stack adjust (R289). -/
def execBranch (a b : Reg) (s : State) : Result :=
  s.apply fun m => branchTo m b (m.reg a)

/-- `CALL a b`: push the return address on the stack at b and jump to register (R290). -/
def execCall (a b : Reg) (s : State) : Result :=
  s.apply fun m => callTo m b (m.reg a)

/-- `PUSHR a b`: push a whole register at [b], post-increment b (R291). -/
def execPushr (a b : Reg) (s : State) : Result :=
  s.apply fun m => pushValue m b .register (m.reg a)

/-- `PUSH8 a b`: push the low 8 bits at [b], post-increment b (R292). -/
def execPush8 (a b : Reg) (s : State) : Result :=
  s.apply fun m => pushValue m b .bits8 (m.reg a)

/-- `PUSH16 a b`: push the low 16 bits at [b], post-increment b (R293). -/
def execPush16 (a b : Reg) (s : State) : Result :=
  s.apply fun m => pushValue m b .bits16 (m.reg a)

/-- `PUSH32 a b`: push the low 32 bits at [b], post-increment b (R294). -/
def execPush32 (a b : Reg) (s : State) : Result :=
  s.apply fun m => pushValue m b .bits32 (m.reg a)

/-- `POPR a b`: pop a whole register from below b, clear it, pre-decrement b (R295). -/
def execPopr (a b : Reg) (s : State) : Result :=
  s.apply fun m => popReg m a b .register .zero

/-- `POP8 a b`: pop 8 bits sign-extended from below b, clear it, pre-decrement b (R296). -/
def execPop8 (a b : Reg) (s : State) : Result :=
  s.apply fun m => popReg m a b .bits8 .signed

/-- `POPU8 a b`: pop 8 bits zero-extended from below b, clear it, pre-decrement b (R297). -/
def execPopu8 (a b : Reg) (s : State) : Result :=
  s.apply fun m => popReg m a b .bits8 .zero

/-- `POP16 a b`: pop 16 bits sign-extended from below b, clear it, pre-decrement b (R298). -/
def execPop16 (a b : Reg) (s : State) : Result :=
  s.apply fun m => popReg m a b .bits16 .signed

/-- `POPU16 a b`: pop 16 bits zero-extended from below b, clear it, pre-decrement b (R299). -/
def execPopu16 (a b : Reg) (s : State) : Result :=
  s.apply fun m => popReg m a b .bits16 .zero

/-- `POP32 a b`: pop 32 bits sign-extended from below b, clear it, pre-decrement b (R300). -/
def execPop32 (a b : Reg) (s : State) : Result :=
  s.apply fun m => popReg m a b .bits32 .signed

/-- `POPU32 a b`: pop 32 bits zero-extended from below b, clear it, pre-decrement b (R301). -/
def execPopu32 (a b : Reg) (s : State) : Result :=
  s.apply fun m => popReg m a b .bits32 .zero

/-- `CMPSKIP.G a b`: signed compare two registers, skip the next instruction if G (R302). -/
def execCmpskipG (a b : Reg) (s : State) : Result :=
  s.apply fun m => skipIf m (relSigned .g (m.reg a) (m.reg b))

/-- `CMPSKIP.GE a b`: signed compare two registers, skip the next instruction if GE (R303). -/
def execCmpskipGe (a b : Reg) (s : State) : Result :=
  s.apply fun m => skipIf m (relSigned .ge (m.reg a) (m.reg b))

/-- `CMPSKIP.E a b`: signed compare two registers, skip the next instruction if E (R304). -/
def execCmpskipE (a b : Reg) (s : State) : Result :=
  s.apply fun m => skipIf m (relSigned .e (m.reg a) (m.reg b))

/-- `CMPSKIP.NE a b`: signed compare two registers, skip the next instruction if NE (R305). -/
def execCmpskipNe (a b : Reg) (s : State) : Result :=
  s.apply fun m => skipIf m (relSigned .ne (m.reg a) (m.reg b))

/-- `CMPSKIP.LE a b`: signed compare two registers, skip the next instruction if LE (R306). -/
def execCmpskipLe (a b : Reg) (s : State) : Result :=
  s.apply fun m => skipIf m (relSigned .le (m.reg a) (m.reg b))

/-- `CMPSKIP.L a b`: signed compare two registers, skip the next instruction if L (R307). -/
def execCmpskipL (a b : Reg) (s : State) : Result :=
  s.apply fun m => skipIf m (relSigned .l (m.reg a) (m.reg b))

/-- `CMPSKIPU.G a b`: unsigned compare two registers, skip the next instruction if G (R308). -/
def execCmpskipuG (a b : Reg) (s : State) : Result :=
  s.apply fun m => skipIf m (relUnsigned .g (m.reg a) (m.reg b))

/-- `CMPSKIPU.GE a b`: unsigned compare two registers, skip the next instruction if GE (R309). -/
def execCmpskipuGe (a b : Reg) (s : State) : Result :=
  s.apply fun m => skipIf m (relUnsigned .ge (m.reg a) (m.reg b))

/-- `CMPSKIPU.LE a b`: unsigned compare two registers, skip the next instruction if LE (R310). -/
def execCmpskipuLe (a b : Reg) (s : State) : Result :=
  s.apply fun m => skipIf m (relUnsigned .le (m.reg a) (m.reg b))

/-- `CMPSKIPU.L a b`: unsigned compare two registers, skip the next instruction if L (R311). -/
def execCmpskipuL (a b : Reg) (s : State) : Result :=
  s.apply fun m => skipIf m (relUnsigned .l (m.reg a) (m.reg b))

end Sys2Proof.Machine
end

