-- ==== Sys2Proof/Machine/TwoOpImm.lean ====
section
/-!
DEFINITION. TwoOpImm: the meanings of the 2OPI integer groups (46_2opi_integer.md R351 to R367).
The state a meaning is given has pc at the word after the instruction (10_state.md R33); every operand is read from
that state, before any write (R36). A meaning is one operation on the machine at its own XLEN (00_scope.md R5).
-/

namespace Sys2Proof.Machine

/-- `ADDI a b ii ii`: add sign-extended immediate (R351). -/
def execAddi (a b : Reg) (imm : Imm16) (s : State) : Result :=
  s.apply fun m => writeReg m a (m.reg b + sextImm imm)

/-- `ADDUI a b ii ii`: add zero-extended immediate (R352). -/
def execAddui (a b : Reg) (imm : Imm16) (s : State) : Result :=
  s.apply fun m => writeReg m a (m.reg b + zextImm imm)

/-- `SUBI a b ii ii`: subtract sign-extended immediate (R353). -/
def execSubi (a b : Reg) (imm : Imm16) (s : State) : Result :=
  s.apply fun m => writeReg m a (m.reg b - sextImm imm)

/-- `SUBUI a b ii ii`: subtract zero-extended immediate (R354). -/
def execSubui (a b : Reg) (imm : Imm16) (s : State) : Result :=
  s.apply fun m => writeReg m a (m.reg b - zextImm imm)

/-- `CMPI a b ii ii`: signed compare with immediate into a condition register (R355). -/
def execCmpi (a b : Reg) (imm : Imm16) (s : State) : Result :=
  s.apply fun m => writeReg m a (compareValue (m.reg b).toInt (sextImm imm : Word s.xlen).toInt)

/-- `LOAD a b ii ii`: load a whole register, base plus immediate (R356). -/
def execLoad (a b : Reg) (imm : Imm16) (s : State) : Result :=
  s.apply fun m => loadReg m a (m.based b imm) .register .zero

/-- `LOAD8 a b ii ii`: load 8 bits sign-extended, base plus immediate (R357). -/
def execLoad8 (a b : Reg) (imm : Imm16) (s : State) : Result :=
  s.apply fun m => loadReg m a (m.based b imm) .bits8 .signed

/-- `LOADU8 a b ii ii`: load 8 bits zero-extended, base plus immediate (R358). -/
def execLoadu8 (a b : Reg) (imm : Imm16) (s : State) : Result :=
  s.apply fun m => loadReg m a (m.based b imm) .bits8 .zero

/-- `LOAD16 a b ii ii`: load 16 bits sign-extended, base plus immediate (R359). -/
def execLoad16 (a b : Reg) (imm : Imm16) (s : State) : Result :=
  s.apply fun m => loadReg m a (m.based b imm) .bits16 .signed

/-- `LOADU16 a b ii ii`: load 16 bits zero-extended, base plus immediate (R360). -/
def execLoadu16 (a b : Reg) (imm : Imm16) (s : State) : Result :=
  s.apply fun m => loadReg m a (m.based b imm) .bits16 .zero

/-- `LOAD32 a b ii ii`: load 32 bits sign-extended, base plus immediate (R361). -/
def execLoad32 (a b : Reg) (imm : Imm16) (s : State) : Result :=
  s.apply fun m => loadReg m a (m.based b imm) .bits32 .signed

/-- `LOADU32 a b ii ii`: load 32 bits zero-extended, base plus immediate (R362). -/
def execLoadu32 (a b : Reg) (imm : Imm16) (s : State) : Result :=
  s.apply fun m => loadReg m a (m.based b imm) .bits32 .zero

/-- `CMPUI a b ii ii`: unsigned compare with immediate into a condition register (R363). -/
def execCmpui (a b : Reg) (imm : Imm16) (s : State) : Result :=
  s.apply fun m => writeReg m a (compareValue (m.reg b).toNat (zextImm imm : Word s.xlen).toNat)

/-- `STORE a b ii ii`: store a whole register, base plus immediate (R364). -/
def execStore (a b : Reg) (imm : Imm16) (s : State) : Result :=
  s.apply fun m => storeValue m (m.based b imm) .register (m.reg a)

/-- `STORE8 a b ii ii`: store the low 8 bits, base plus immediate (R365). -/
def execStore8 (a b : Reg) (imm : Imm16) (s : State) : Result :=
  s.apply fun m => storeValue m (m.based b imm) .bits8 (m.reg a)

/-- `STORE16 a b ii ii`: store the low 16 bits, base plus immediate (R366). -/
def execStore16 (a b : Reg) (imm : Imm16) (s : State) : Result :=
  s.apply fun m => storeValue m (m.based b imm) .bits16 (m.reg a)

/-- `STORE32 a b ii ii`: store the low 32 bits, base plus immediate (R367). -/
def execStore32 (a b : Reg) (imm : Imm16) (s : State) : Result :=
  s.apply fun m => storeValue m (m.based b imm) .bits32 (m.reg a)

end Sys2Proof.Machine
end

