-- ==== Sys2Proof/Machine/Dispatch.lean ====
section
/-! DEFINITION. Dispatch: one arm per instruction of the listing, each one direct call of its meaning. -/

namespace Sys2Proof.Machine

def exec (i : Instr) (s : State) : Host.Outcome State Fault Refusal :=
  match i with
  | .nop ignored => Sys2Proof.Machine.execNop ignored s
  | .halt ignored => Sys2Proof.Machine.execHalt ignored s
  | .addCi a b c d => Sys2Proof.Machine.execAddCi a b c d s
  | .addCo a b c d => Sys2Proof.Machine.execAddCo a b c d s
  | .addCio a b c d => Sys2Proof.Machine.execAddCio a b c d s
  | .adduCi a b c d => Sys2Proof.Machine.execAdduCi a b c d s
  | .adduCo a b c d => Sys2Proof.Machine.execAdduCo a b c d s
  | .adduCio a b c d => Sys2Proof.Machine.execAdduCio a b c d s
  | .subBi a b c d => Sys2Proof.Machine.execSubBi a b c d s
  | .subBo a b c d => Sys2Proof.Machine.execSubBo a b c d s
  | .subBio a b c d => Sys2Proof.Machine.execSubBio a b c d s
  | .subuBi a b c d => Sys2Proof.Machine.execSubuBi a b c d s
  | .subuBo a b c d => Sys2Proof.Machine.execSubuBo a b c d s
  | .subuBio a b c d => Sys2Proof.Machine.execSubuBio a b c d s
  | .multiply a b c d => Sys2Proof.Machine.execMultiply a b c d s
  | .multiplyu a b c d => Sys2Proof.Machine.execMultiplyu a b c d s
  | .divide a b c d => Sys2Proof.Machine.execDivide a b c d s
  | .divideu a b c d => Sys2Proof.Machine.execDivideu a b c d s
  | .mux a b c d => Sys2Proof.Machine.execMux a b c d s
  | .nmux a b c d => Sys2Proof.Machine.execNmux a b c d s
  | .sort a b c d => Sys2Proof.Machine.execSort a b c d s
  | .sortu a b c d => Sys2Proof.Machine.execSortu a b c d s
  | .add a b c => Sys2Proof.Machine.execAdd a b c s
  | .addu a b c => Sys2Proof.Machine.execAddu a b c s
  | .sub a b c => Sys2Proof.Machine.execSub a b c s
  | .subu a b c => Sys2Proof.Machine.execSubu a b c s
  | .cmp a b c => Sys2Proof.Machine.execCmp a b c s
  | .cmpu a b c => Sys2Proof.Machine.execCmpu a b c s
  | .mul a b c => Sys2Proof.Machine.execMul a b c s
  | .mulh a b c => Sys2Proof.Machine.execMulh a b c s
  | .mulu a b c => Sys2Proof.Machine.execMulu a b c s
  | .muluh a b c => Sys2Proof.Machine.execMuluh a b c s
  | .div a b c => Sys2Proof.Machine.execDiv a b c s
  | .mod a b c => Sys2Proof.Machine.execMod a b c s
  | .divu a b c => Sys2Proof.Machine.execDivu a b c s
  | .modu a b c => Sys2Proof.Machine.execModu a b c s
  | .max a b c => Sys2Proof.Machine.execMax a b c s
  | .maxu a b c => Sys2Proof.Machine.execMaxu a b c s
  | .min a b c => Sys2Proof.Machine.execMin a b c s
  | .minu a b c => Sys2Proof.Machine.execMinu a b c s
  | .pack a b c => Sys2Proof.Machine.execPack a b c s
  | .unpack a b c => Sys2Proof.Machine.execUnpack a b c s
  | .pack8Co a b c => Sys2Proof.Machine.execPack8Co a b c s
  | .pack8uCo a b c => Sys2Proof.Machine.execPack8uCo a b c s
  | .pack16Co a b c => Sys2Proof.Machine.execPack16Co a b c s
  | .pack16uCo a b c => Sys2Proof.Machine.execPack16uCo a b c s
  | .pack32Co a b c => Sys2Proof.Machine.execPack32Co a b c s
  | .pack32uCo a b c => Sys2Proof.Machine.execPack32uCo a b c s
  | .and a b c => Sys2Proof.Machine.execAnd a b c s
  | .or a b c => Sys2Proof.Machine.execOr a b c s
  | .xor a b c => Sys2Proof.Machine.execXor a b c s
  | .nand a b c => Sys2Proof.Machine.execNand a b c s
  | .nor a b c => Sys2Proof.Machine.execNor a b c s
  | .xnor a b c => Sys2Proof.Machine.execXnor a b c s
  | .mpq a b c => Sys2Proof.Machine.execMpq a b c s
  | .lpq a b c => Sys2Proof.Machine.execLpq a b c s
  | .cpq a b c => Sys2Proof.Machine.execCpq a b c s
  | .bpq a b c => Sys2Proof.Machine.execBpq a b c s
  | .sal a b c => Sys2Proof.Machine.execSal a b c s
  | .sar a b c => Sys2Proof.Machine.execSar a b c s
  | .sl0 a b c => Sys2Proof.Machine.execSl0 a b c s
  | .sr0 a b c => Sys2Proof.Machine.execSr0 a b c s
  | .sl1 a b c => Sys2Proof.Machine.execSl1 a b c s
  | .sr1 a b c => Sys2Proof.Machine.execSr1 a b c s
  | .rol a b c => Sys2Proof.Machine.execRol a b c s
  | .ror a b c => Sys2Proof.Machine.execRor a b c s
  | .loadx a b c => Sys2Proof.Machine.execLoadx a b c s
  | .loadx8 a b c => Sys2Proof.Machine.execLoadx8 a b c s
  | .loadxu8 a b c => Sys2Proof.Machine.execLoadxu8 a b c s
  | .loadx16 a b c => Sys2Proof.Machine.execLoadx16 a b c s
  | .loadxu16 a b c => Sys2Proof.Machine.execLoadxu16 a b c s
  | .loadx32 a b c => Sys2Proof.Machine.execLoadx32 a b c s
  | .loadxu32 a b c => Sys2Proof.Machine.execLoadxu32 a b c s
  | .storex a b c => Sys2Proof.Machine.execStorex a b c s
  | .storex8 a b c => Sys2Proof.Machine.execStorex8 a b c s
  | .storex16 a b c => Sys2Proof.Machine.execStorex16 a b c s
  | .storex32 a b c => Sys2Proof.Machine.execStorex32 a b c s
  | .cmpjumpG a b c => Sys2Proof.Machine.execCmpjumpG a b c s
  | .cmpjumpGe a b c => Sys2Proof.Machine.execCmpjumpGe a b c s
  | .cmpjumpE a b c => Sys2Proof.Machine.execCmpjumpE a b c s
  | .cmpjumpNe a b c => Sys2Proof.Machine.execCmpjumpNe a b c s
  | .cmpjumpLe a b c => Sys2Proof.Machine.execCmpjumpLe a b c s
  | .cmpjumpL a b c => Sys2Proof.Machine.execCmpjumpL a b c s
  | .cmpjumpuG a b c => Sys2Proof.Machine.execCmpjumpuG a b c s
  | .cmpjumpuGe a b c => Sys2Proof.Machine.execCmpjumpuGe a b c s
  | .cmpjumpuLe a b c => Sys2Proof.Machine.execCmpjumpuLe a b c s
  | .cmpjumpuL a b c => Sys2Proof.Machine.execCmpjumpuL a b c s
  | .neg a b => Sys2Proof.Machine.execNeg a b s
  | .abs a b => Sys2Proof.Machine.execAbs a b s
  | .nabs a b => Sys2Proof.Machine.execNabs a b s
  | .swap a b => Sys2Proof.Machine.execSwap a b s
  | .copy a b => Sys2Proof.Machine.execCopy a b s
  | .move a b => Sys2Proof.Machine.execMove a b s
  | .not a b => Sys2Proof.Machine.execNot a b s
  | .branch a b => Sys2Proof.Machine.execBranch a b s
  | .call a b => Sys2Proof.Machine.execCall a b s
  | .pushr a b => Sys2Proof.Machine.execPushr a b s
  | .push8 a b => Sys2Proof.Machine.execPush8 a b s
  | .push16 a b => Sys2Proof.Machine.execPush16 a b s
  | .push32 a b => Sys2Proof.Machine.execPush32 a b s
  | .popr a b => Sys2Proof.Machine.execPopr a b s
  | .pop8 a b => Sys2Proof.Machine.execPop8 a b s
  | .popu8 a b => Sys2Proof.Machine.execPopu8 a b s
  | .pop16 a b => Sys2Proof.Machine.execPop16 a b s
  | .popu16 a b => Sys2Proof.Machine.execPopu16 a b s
  | .pop32 a b => Sys2Proof.Machine.execPop32 a b s
  | .popu32 a b => Sys2Proof.Machine.execPopu32 a b s
  | .cmpskipG a b => Sys2Proof.Machine.execCmpskipG a b s
  | .cmpskipGe a b => Sys2Proof.Machine.execCmpskipGe a b s
  | .cmpskipE a b => Sys2Proof.Machine.execCmpskipE a b s
  | .cmpskipNe a b => Sys2Proof.Machine.execCmpskipNe a b s
  | .cmpskipLe a b => Sys2Proof.Machine.execCmpskipLe a b s
  | .cmpskipL a b => Sys2Proof.Machine.execCmpskipL a b s
  | .cmpskipuG a b => Sys2Proof.Machine.execCmpskipuG a b s
  | .cmpskipuGe a b => Sys2Proof.Machine.execCmpskipuGe a b s
  | .cmpskipuLe a b => Sys2Proof.Machine.execCmpskipuLe a b s
  | .cmpskipuL a b => Sys2Proof.Machine.execCmpskipuL a b s
  | .readpc a => Sys2Proof.Machine.execReadpc a s
  | .readscid a => Sys2Proof.Machine.execReadscid a s
  | .setFalse a => Sys2Proof.Machine.execSetFalse a s
  | .setTrue a => Sys2Proof.Machine.execSetTrue a s
  | .jsrCoroutine a => Sys2Proof.Machine.execJsrCoroutine a s
  | .ret a => Sys2Proof.Machine.execRet a s
  | .pushpc a => Sys2Proof.Machine.execPushpc a s
  | .poppc a => Sys2Proof.Machine.execPoppc a s
  | .addi a b imm => Sys2Proof.Machine.execAddi a b imm s
  | .addui a b imm => Sys2Proof.Machine.execAddui a b imm s
  | .subi a b imm => Sys2Proof.Machine.execSubi a b imm s
  | .subui a b imm => Sys2Proof.Machine.execSubui a b imm s
  | .cmpi a b imm => Sys2Proof.Machine.execCmpi a b imm s
  | .load a b imm => Sys2Proof.Machine.execLoad a b imm s
  | .load8 a b imm => Sys2Proof.Machine.execLoad8 a b imm s
  | .loadu8 a b imm => Sys2Proof.Machine.execLoadu8 a b imm s
  | .load16 a b imm => Sys2Proof.Machine.execLoad16 a b imm s
  | .loadu16 a b imm => Sys2Proof.Machine.execLoadu16 a b imm s
  | .load32 a b imm => Sys2Proof.Machine.execLoad32 a b imm s
  | .loadu32 a b imm => Sys2Proof.Machine.execLoadu32 a b imm s
  | .cmpui a b imm => Sys2Proof.Machine.execCmpui a b imm s
  | .store a b imm => Sys2Proof.Machine.execStore a b imm s
  | .store8 a b imm => Sys2Proof.Machine.execStore8 a b imm s
  | .store16 a b imm => Sys2Proof.Machine.execStore16 a b imm s
  | .store32 a b imm => Sys2Proof.Machine.execStore32 a b imm s
  | .jumpC a imm => Sys2Proof.Machine.execJumpC a imm s
  | .jumpB a imm => Sys2Proof.Machine.execJumpB a imm s
  | .jumpO a imm => Sys2Proof.Machine.execJumpO a imm s
  | .jumpG a imm => Sys2Proof.Machine.execJumpG a imm s
  | .jumpGe a imm => Sys2Proof.Machine.execJumpGe a imm s
  | .jumpE a imm => Sys2Proof.Machine.execJumpE a imm s
  | .jumpNe a imm => Sys2Proof.Machine.execJumpNe a imm s
  | .jumpLe a imm => Sys2Proof.Machine.execJumpLe a imm s
  | .jumpL a imm => Sys2Proof.Machine.execJumpL a imm s
  | .jumpZ a imm => Sys2Proof.Machine.execJumpZ a imm s
  | .jumpNz a imm => Sys2Proof.Machine.execJumpNz a imm s
  | .jumpP a imm => Sys2Proof.Machine.execJumpP a imm s
  | .jumpNp a imm => Sys2Proof.Machine.execJumpNp a imm s
  | .calli a imm => Sys2Proof.Machine.execCalli a imm s
  | .loadi a imm => Sys2Proof.Machine.execLoadi a imm s
  | .loadui a imm => Sys2Proof.Machine.execLoadui a imm s
  | .sali a imm => Sys2Proof.Machine.execSali a imm s
  | .sari a imm => Sys2Proof.Machine.execSari a imm s
  | .sl0i a imm => Sys2Proof.Machine.execSl0i a imm s
  | .sr0i a imm => Sys2Proof.Machine.execSr0i a imm s
  | .sl1i a imm => Sys2Proof.Machine.execSl1i a imm s
  | .sr1i a imm => Sys2Proof.Machine.execSr1i a imm s
  | .loadr a imm => Sys2Proof.Machine.execLoadr a imm s
  | .loadr8 a imm => Sys2Proof.Machine.execLoadr8 a imm s
  | .loadru8 a imm => Sys2Proof.Machine.execLoadru8 a imm s
  | .loadr16 a imm => Sys2Proof.Machine.execLoadr16 a imm s
  | .loadru16 a imm => Sys2Proof.Machine.execLoadru16 a imm s
  | .loadr32 a imm => Sys2Proof.Machine.execLoadr32 a imm s
  | .loadru32 a imm => Sys2Proof.Machine.execLoadru32 a imm s
  | .storer a imm => Sys2Proof.Machine.execStorer a imm s
  | .storer8 a imm => Sys2Proof.Machine.execStorer8 a imm s
  | .storer16 a imm => Sys2Proof.Machine.execStorer16 a imm s
  | .storer32 a imm => Sys2Proof.Machine.execStorer32 a imm s
  | .jump imm => Sys2Proof.Machine.execJump imm s
  | .fopenRead => Sys2Proof.Machine.execFopenRead s
  | .fopenWrite => Sys2Proof.Machine.execFopenWrite s
  | .fclose => Sys2Proof.Machine.execFclose s
  | .rewind => Sys2Proof.Machine.execRewind s
  | .fseek => Sys2Proof.Machine.execFseek s
  | .fgetc => Sys2Proof.Machine.execFgetc s
  | .fputc => Sys2Proof.Machine.execFputc s
  | .cmpskipiG a imm => Sys2Proof.Machine.execCmpskipiG a imm s
  | .cmpskipiGe a imm => Sys2Proof.Machine.execCmpskipiGe a imm s
  | .cmpskipiE a imm => Sys2Proof.Machine.execCmpskipiE a imm s
  | .cmpskipiNe a imm => Sys2Proof.Machine.execCmpskipiNe a imm s
  | .cmpskipiLe a imm => Sys2Proof.Machine.execCmpskipiLe a imm s
  | .cmpskipiL a imm => Sys2Proof.Machine.execCmpskipiL a imm s
  | .cmpskipuiG a imm => Sys2Proof.Machine.execCmpskipuiG a imm s
  | .cmpskipuiGe a imm => Sys2Proof.Machine.execCmpskipuiGe a imm s
  | .cmpskipuiLe a imm => Sys2Proof.Machine.execCmpskipuiLe a imm s
  | .cmpskipuiL a imm => Sys2Proof.Machine.execCmpskipuiL a imm s
  | .andi a b imm => Sys2Proof.Machine.execAndi a b imm s
  | .ori a b imm => Sys2Proof.Machine.execOri a b imm s
  | .xori a b imm => Sys2Proof.Machine.execXori a b imm s
  | .nandi a b imm => Sys2Proof.Machine.execNandi a b imm s
  | .nori a b imm => Sys2Proof.Machine.execNori a b imm s
  | .xnori a b imm => Sys2Proof.Machine.execXnori a b imm s
  | .cmpjumpiG a b imm => Sys2Proof.Machine.execCmpjumpiG a b imm s
  | .cmpjumpiGe a b imm => Sys2Proof.Machine.execCmpjumpiGe a b imm s
  | .cmpjumpiE a b imm => Sys2Proof.Machine.execCmpjumpiE a b imm s
  | .cmpjumpiNe a b imm => Sys2Proof.Machine.execCmpjumpiNe a b imm s
  | .cmpjumpiLe a b imm => Sys2Proof.Machine.execCmpjumpiLe a b imm s
  | .cmpjumpiL a b imm => Sys2Proof.Machine.execCmpjumpiL a b imm s
  | .cmpjumpuiG a b imm => Sys2Proof.Machine.execCmpjumpuiG a b imm s
  | .cmpjumpuiGe a b imm => Sys2Proof.Machine.execCmpjumpuiGe a b imm s
  | .cmpjumpuiLe a b imm => Sys2Proof.Machine.execCmpjumpuiLe a b imm s
  | .cmpjumpuiL a b imm => Sys2Proof.Machine.execCmpjumpuiL a b imm s

end Sys2Proof.Machine
end

