-- ==== Sys2Proof/Machine/Fetch.lean ====
section
/-!
DEFINITION. Fetch: the word at pc and its decoding, with the faults of both in the order of 60_exceptions.md R514
(70_reset_and_hazards.md R546).
-/

namespace Sys2Proof.Machine

variable {n : Xlen}

/-- W <- MemRead(pc, 4): the byte at pc is W[31:24] (20_memory.md R62). -/
def Mach.fetchWord (s : Mach n) : InstrWord :=
  BitVec.ofNat 32 (s.mem.readBE s.pc.toNat 4)

/-- The fault of a word that is no instruction (60_exceptions.md R501, R505). A fetched word is never truncated. -/
def decodeFault (w : InstrWord) (e : DecodeError) : Fault :=
  match e with
  | .illegal word => .illegalInstruction word
  | .invalidHalcode callId => .invalidHalcode callId
  | .truncated => .illegalInstruction w

/-- The instruction at pc, or the fault of its fetch or of its decoding (R546, R514). -/
def Mach.fetchDecode (s : Mach n) : Except Fault Instr :=
  if s.inRange s.pc 4 then
    match decode s.fetchWord with
    | .ok i => .ok i
    | .error e => .error (decodeFault s.fetchWord e)
  else .error (.memoryOutOfRange s.pc.toNat 4)

/-- Stores a word as four bytes at pc, where the next fetch reads it, and lets the machine run. -/
def Mach.placeWord (s : Mach n) (w : InstrWord) : Mach n :=
  { s with mem := s.mem.writeBE s.pc.toNat 4 w.toNat, status := .running }

end Sys2Proof.Machine
end

