-- ==== Sys2Proof/Machine/Step.lean ====
section
/-! DEFINITION. Step: the step function of 70_reset_and_hazards.md R546. -/

namespace Sys2Proof.Machine

/-- One step. A state that is not running is final and unchanged (R546); otherwise fetch, decode, move pc past the word
and apply the instruction's rule. -/
def step (s : State) : Host.Outcome State Fault Refusal :=
  match s.mach.status with
  | .running =>
    match s.mach.fetchDecode with
    | .ok i => exec i s.mach.advance.toState
    | .error f => .next (s.mach.takeFault s.mach.pc f).toState
  | .halted => .next s
  | .faulted _ => .next s

/-- The state with the word of an instruction where the next step fetches it: the four bytes at pc, the first byte at
pc (R62), in a running machine. The table gives every instruction all 32 bits. -/
def State.withFetchWord (s : State) (nbits w : Nat) : State :=
  (s.mach.placeWord (BitVec.ofNat 32 (w % 2 ^ nbits))).toState

end Sys2Proof.Machine
end

