-- ==== Sys2Proof/Machine/Boot.lean ====
section
/-!
DEFINITION. Boot: the inputs of a run, which the host fixes before the first step, and its outputs, which the host reads
after the last (70_reset_and_hazards.md R543, R545; 48_halcode.md R436, R438).
-/

namespace Sys2Proof.Machine

/-- The bytes of a program image at consecutive addresses (R543). -/
def Memory.placeBytes (m : Memory) (a : Nat) (bytes : List Byte) : Memory :=
  match bytes with
  | [] => m
  | b :: rest => (m.put a b).placeBytes (a + 1) rest

/-- What is fixed before the first step of a run: the parameters MEMSIZE, RESET_REGS and RESET_PC (00_scope.md R6, R8)
and the inputs of R545. -/
structure RunInputs (n : Xlen) where
  memSize : Nat
  resetRegs : Vector (Word n) 16
  resetPc : Word n
  image : List Byte
  tape1 : List Byte
  tape2 : List Byte
  keyboard : List Byte
deriving DecidableEq, Repr

/-- The defaults of R6 and R8, and no input. -/
def RunInputs.default : RunInputs Config.resetXlen :=
  { memSize := Config.memSize
    resetRegs := Vector.replicate 16 (Config.resetReg Config.resetXlen)
    resetPc := Config.resetPc Config.resetXlen
    image := []
    tape1 := []
    tape2 := []
    keyboard := [] }

/-- The machine right after reset for the inputs of a run: the image from address 0 and 0x00 after it, the cells of both
tapes, the keyboard input (R541 to R545). With the defaults it is that of `State.reset`. -/
def Mach.boot {n : Xlen} (inputs : RunInputs n) : Mach n :=
  { regs := inputs.resetRegs
    pc := inputs.resetPc
    mem := Memory.placeBytes { size := inputs.memSize, cells := [] } 0 inputs.image
    tape1 := Tape.reset inputs.tape1
    tape2 := Tape.reset inputs.tape2
    tty := { input := inputs.keyboard, output := [] }
    status := .running }

/-- Bytes without the zeros at their head. -/
def dropZeros (bytes : List Byte) : List Byte :=
  match bytes with
  | [] => []
  | b :: rest => if b = 0 then dropZeros rest else b :: rest

/-- Bytes without leading and trailing 0x00, as tape output is compared (R436). -/
def stripZeros (bytes : List Byte) : List Byte :=
  (dropZeros (dropZeros bytes).reverse).reverse

/-- The output on a tape: meaningful for a closed tape alone (R438). -/
def Tape.output (t : Tape) : Option (List Byte) :=
  if t.mode = .closed then some (stripZeros t.cells) else none

end Sys2Proof.Machine
end

