-- ==== Sys2Proof/Safety.lean ====
section
/-!
DEFINITION. Safety: the terms in which claims about the machine are stated. The first part is the spec's own arithmetic
over integers (00_scope.md R10), which the meanings do not use, so that a claim compares the two. The second part says
what an instruction leaves unchanged. The third part says what a run keeps.
-/

namespace Sys2Proof.Machine

variable {n : Xlen}

/-! ### The spec's arithmetic -/

/-- u(v) (R10). -/
def uInt (v : Word n) : Int := v.toNat

/-- s(v) (R10): u(v), less 2^n when the top bit is set. -/
def sInt (v : Word n) : Int :=
  if v.toNat < 2 ^ (n.bits - 1) then v.toNat else (v.toNat : Int) - 2 ^ n.bits

/-- "z mod 2^n": the unique n-bit pattern congruent to an integer (R10). -/
def wordOf (z : Int) : Word n := BitVec.ofNat n.bits (z % 2 ^ n.bits).toNat

/-- v[k] (R9). -/
def bitOf (v : Word n) (k : Nat) : Bool := v.toNat / 2 ^ k % 2 == 1

/-- A bit as a number, "f ? 1 : 0" (R153). -/
def bitInt (f : Bool) : Int := if f then 1 else 0

/-- u(imm16) (30_encoding.md R103). -/
def uImm (imm : Imm16) : Int := imm.toNat

/-- s(imm16), a value in -32768 .. 32767 (30_encoding.md R102). -/
def sImm (imm : Imm16) : Int := if imm.toNat < 32768 then imm.toNat else (imm.toNat : Int) - 65536

/-- The number in k bytes, the byte at the lowest address most significant (20_memory.md R61). -/
def bytesValue (m : Memory) (address k : Nat) : Nat :=
  ∑ j ∈ Finset.range k, (m.get (address + j)).toNat * 256 ^ (k - 1 - j)

/-- The two's complement value of a k-byte datum (00_scope.md R13). -/
def datumSigned (k v : Nat) : Int := if v < 2 ^ (8 * k - 1) then v else (v : Int) - 2 ^ (8 * k)

/-- The value a load of k bytes gives a register (20_memory.md R76). -/
def loadedValue (m : Memory) (address k : Nat) (e : Extension) : Int :=
  match e with
  | .signed => datumSigned k (bytesValue m address k)
  | .zero => bytesValue m address k

/-- The k bytes from an address on hold the low 8k bits of a value, most significant byte first (R61, R77). -/
def HoldsBytes (m : Memory) (address k v : Nat) : Prop :=
  ∀ j, j < k → (m.get (address + j)).toNat = v / 256 ^ (k - 1 - j) % 256

/-- The IDs of the devices (48_halcode.md R431). -/
def Device.id (d : Device) : Word n :=
  match d with
  | .tty => 0x00000000
  | .tape .tape1 => 0x00001100
  | .tape .tape2 => 0x00001101

/-! ### What is left unchanged -/

/-- Every register but those of a list is unchanged. -/
def KeepsRegs (s t : Mach n) (written : List Reg) : Prop :=
  ∀ r, r ∉ written → t.reg r = s.reg r

/-- Every byte of memory reads as before, and there is as much of it. -/
def KeepsMemory (s t : Mach n) : Prop :=
  t.mem.size = s.mem.size ∧ ∀ a, t.mem.get a = s.mem.get a

/-- Every byte of memory outside the k bytes from an address on reads as before. -/
def KeepsMemoryOutside (s t : Mach n) (address : Word n) (k : Nat) : Prop :=
  t.mem.size = s.mem.size ∧
    ∀ a, a < address.toNat ∨ address.toNat + k ≤ a → t.mem.get a = s.mem.get a

/-- Both tapes and the keyboard/tty are unchanged. -/
def KeepsDevices (s t : Mach n) : Prop :=
  t.tape1 = s.tape1 ∧ t.tape2 = s.tape2 ∧ t.tty = s.tty

/-- Memory, devices and the run status are unchanged, and so is every register outside the list. -/
def OnlyRegs (s t : Mach n) (written : List Reg) : Prop :=
  KeepsRegs s t written ∧ KeepsMemory s t ∧ KeepsDevices s t ∧ t.status = s.status

/-- As `OnlyRegs`, but for the k bytes of memory from an address on. -/
def OnlyRegsAndBytes (s t : Mach n) (written : List Reg) (address : Word n) (k : Nat) : Prop :=
  KeepsRegs s t written ∧ KeepsMemoryOutside s t address k ∧ KeepsDevices s t ∧ t.status = s.status

/-! ### Shapes of completion: each says that the meaning answers a next state, and everything about that state -/

/-- x[a] becomes a value; pc stays at the next word; nothing else changes. -/
def SetsReg (i : Instr) (s : Mach n) (a : Reg) (v : Word n) : Prop :=
  ∃ t : Mach n, exec i s.toState = .next t.toState ∧ t.reg a = v ∧ t.pc = s.pc ∧ OnlyRegs s t [a]

/-- As `SetsReg`, with the value given bit by bit. -/
def SetsBits (i : Instr) (s : Mach n) (a : Reg) (f : Nat → Bool) : Prop :=
  ∃ t : Mach n, exec i s.toState = .next t.toState ∧ (∀ k, k < n.bits → bitOf (t.reg a) k = f k) ∧
    t.pc = s.pc ∧ OnlyRegs s t [a]

/-- x[a] and x[b] become two values; nothing else changes. -/
def SetsPair (i : Instr) (s : Mach n) (a b : Reg) (va vb : Word n) : Prop :=
  ∃ t : Mach n, exec i s.toState = .next t.toState ∧ t.reg a = va ∧ t.reg b = vb ∧
    t.pc = s.pc ∧ OnlyRegs s t [a, b]

/-- x[a] becomes a value and one bit of x[d] becomes a flag, the other bits of x[d] keeping theirs. -/
def SetsRegAndFlag (i : Instr) (s : Mach n) (a d : Reg) (v : Word n) (bit : Nat) (f : Bool) : Prop :=
  ∃ t : Mach n, exec i s.toState = .next t.toState ∧ t.reg a = v ∧
    (∀ k, k < n.bits → bitOf (t.reg d) k = if k = bit then f else bitOf (s.reg d) k) ∧
    t.pc = s.pc ∧ OnlyRegs s t [a, d]

/-- pc becomes the target when the condition holds and stays at the next word otherwise; nothing else changes. -/
def GoesIf (i : Instr) (s : Mach n) (c : Prop) (target : Word n) : Prop :=
  ∃ t : Mach n, exec i s.toState = .next t.toState ∧ (c → t.pc = target) ∧ (¬c → t.pc = s.pc) ∧ OnlyRegs s t []

/-- A fault raised by the instruction's own rule (60_exceptions.md R500): the next state has the status of the fault, pc
at the instruction's address (the state given to `exec` has it 4 further) and everything else as before. -/
def RaisesFault (i : Instr) (s : Mach n) (f : Fault) : Prop :=
  ∃ t : Mach n, exec i s.toState = .next t.toState ∧ t.status = .faulted f ∧ t.pc = wordOf (uInt s.pc - 4) ∧
    KeepsRegs s t [] ∧ KeepsMemory s t ∧ KeepsDevices s t

/-- A load of k bytes: the datum of an access in range, extended, into x[a]; the fault of one out of range. -/
def LoadsReg (i : Instr) (s : Mach n) (a : Reg) (address : Word n) (k : Nat) (e : Extension) : Prop :=
  (address.toNat + k ≤ s.mem.size → SetsReg i s a (wordOf (loadedValue s.mem address.toNat k e))) ∧
  (s.mem.size < address.toNat + k → RaisesFault i s (.memoryOutOfRange address.toNat k))

/-- A store of the low k bytes of a value, of which no register changes; the fault of one out of range. -/
def StoresValue (i : Instr) (s : Mach n) (address : Word n) (k : Nat) (v : Word n) : Prop :=
  (address.toNat + k ≤ s.mem.size →
    ∃ t : Mach n, exec i s.toState = .next t.toState ∧ HoldsBytes t.mem address.toNat k v.toNat ∧ t.pc = s.pc ∧
      OnlyRegsAndBytes s t [] address k) ∧
  (s.mem.size < address.toNat + k → RaisesFault i s (.memoryOutOfRange address.toNat k))

/-- A push of the low k bytes of a value at the pointer x[p], which then moves up by k; pc goes to a target. -/
def PushesValue (i : Instr) (s : Mach n) (p : Reg) (k : Nat) (v target : Word n) : Prop :=
  ((s.reg p).toNat + k ≤ s.mem.size →
    ∃ t : Mach n, exec i s.toState = .next t.toState ∧ HoldsBytes t.mem (s.reg p).toNat k v.toNat ∧
      t.reg p = wordOf (uInt (s.reg p) + k) ∧ t.pc = target ∧ OnlyRegsAndBytes s t [p] (s.reg p) k) ∧
  (s.mem.size < (s.reg p).toNat + k → RaisesFault i s (.memoryOutOfRange (s.reg p).toNat k))

/-- A pop below the pointer x[p] into another register x[a], which clears the bytes and moves the pointer down; refused
when the two are one register. -/
def PopsReg (i : Instr) (s : Mach n) (a p : Reg) (w : Width) (e : Extension) : Prop :=
  (a ≠ p → (s.topAddress p w).toNat + w.bytes n ≤ s.mem.size →
    ∃ t : Mach n, exec i s.toState = .next t.toState ∧
      t.reg a = wordOf (loadedValue s.mem (s.topAddress p w).toNat (w.bytes n) e) ∧
      t.reg p = wordOf (uInt (s.reg p) - w.bytes n) ∧
      HoldsBytes t.mem (s.topAddress p w).toNat (w.bytes n) 0 ∧ t.pc = s.pc ∧
      OnlyRegsAndBytes s t [a, p] (s.topAddress p w) (w.bytes n)) ∧
  (a ≠ p → s.mem.size < (s.topAddress p w).toNat + w.bytes n →
    RaisesFault i s (.memoryOutOfRange (s.topAddress p w).toNat (w.bytes n))) ∧
  (a = p → exec i s.toState = .refused .coincidingDestinations)

/-- A device action on one tape: the other tape, the tty, every register, memory and status are unchanged. -/
def OnlyTape (s t : Mach n) (d : TapeId) : Prop :=
  KeepsRegs s t [] ∧ KeepsMemory s t ∧ (∀ e, e ≠ d → t.tape e = s.tape e) ∧ t.tty = s.tty ∧
    t.status = s.status ∧ t.pc = s.pc

/-- A position is FirstNonZero of the cells (48_halcode.md R433). -/
def IsFirstNonZero (cells : List Byte) (p : Nat) : Prop :=
  (∀ j, j < p → cells[j]? = some 0) ∧ (p = cells.length ∨ ∃ c, c ≠ 0 ∧ cells[p]? = some c)

/-- A position is FirstZero of the cells (R433). -/
def IsFirstZero (cells : List Byte) (p : Nat) : Prop :=
  (∀ j, j < p → ∃ c, c ≠ 0 ∧ cells[j]? = some c) ∧ (p = cells.length ∨ cells[p]? = some 0)

end Sys2Proof.Machine

namespace Sys2Proof

/-! ### Classes of instructions -/

/-- The eight instructions whose meaning was lost with the source's figures (R510). -/
def Instr.isPack (i : Instr) : Bool :=
  match i with
  | .pack _ _ _ | .unpack _ _ _ | .pack8Co _ _ _ | .pack8uCo _ _ _ => true
  | .pack16Co _ _ _ | .pack16uCo _ _ _ | .pack32Co _ _ _ | .pack32uCo _ _ _ => true
  | _ => false

/-- The seven HALCODEs (48_halcode.md R430). -/
def Instr.isHalcode (i : Instr) : Bool :=
  match i with
  | .fopenRead | .fopenWrite | .fclose | .rewind | .fseek | .fgetc | .fputc => true
  | _ => false

/-- The instructions that write memory (20_memory.md R65, R281): stores, pushes, pops and the calls that save pc. -/
def Instr.writesMemory (i : Instr) : Bool :=
  match i with
  | .storex _ _ _ | .storex8 _ _ _ | .storex16 _ _ _ | .storex32 _ _ _ => true
  | .store _ _ _ | .store8 _ _ _ | .store16 _ _ _ | .store32 _ _ _ => true
  | .storer _ _ | .storer8 _ _ | .storer16 _ _ | .storer32 _ _ => true
  | .branch _ _ | .call _ _ | .calli _ _ | .pushpc _ => true
  | .pushr _ _ | .push8 _ _ | .push16 _ _ | .push32 _ _ => true
  | .popr _ _ | .pop8 _ _ | .popu8 _ _ | .pop16 _ _ | .popu16 _ _ | .pop32 _ _ | .popu32 _ _ => true
  | _ => false

/-- The instructions that can raise a fault of their own: memory accesses, divisions, HALCODEs (60_exceptions.md R515). -/
def Instr.canFault (i : Instr) : Bool :=
  i.writesMemory || i.isHalcode || match i with
  | .div _ _ _ | .mod _ _ _ | .divu _ _ _ | .modu _ _ _ | .divide _ _ _ _ | .divideu _ _ _ _ => true
  | .loadx _ _ _ | .loadx8 _ _ _ | .loadxu8 _ _ _ | .loadx16 _ _ _ | .loadxu16 _ _ _ => true
  | .loadx32 _ _ _ | .loadxu32 _ _ _ => true
  | .load _ _ _ | .load8 _ _ _ | .loadu8 _ _ _ | .load16 _ _ _ | .loadu16 _ _ _ => true
  | .load32 _ _ _ | .loadu32 _ _ _ => true
  | .loadr _ _ | .loadr8 _ _ | .loadru8 _ _ | .loadr16 _ _ | .loadru16 _ _ => true
  | .loadr32 _ _ | .loadru32 _ _ => true
  | .ret _ | .poppc _ => true
  | _ => false

/-- The dividend and the divisor of a division (41_4op_integer.md R167, R168; 42_3op_integer_alu.md R192 to R195). -/
def Instr.divides (i : Instr) : Option (Reg × Reg) :=
  match i with
  | .div _ b c | .mod _ b c | .divu _ b c | .modu _ b c => some (b, c)
  | .divide _ _ c d | .divideu _ _ c d => some (c, d)
  | _ => none

/-- The divisions that read their operands with s, and so have the corner of R504. -/
def Instr.dividesSigned (i : Instr) : Bool :=
  match i with
  | .div _ _ _ | .mod _ _ _ | .divide _ _ _ _ => true
  | _ => false

/-- The register that names the device of a HALCODE (48_halcode.md R439 to R445). -/
def Instr.deviceRegister (i : Instr) : Option Reg :=
  match i with
  | .fopenRead | .fopenWrite | .fclose | .rewind | .fseek => some 0
  | .fgetc | .fputc => some 1
  | _ => none

end Sys2Proof

namespace Sys2Proof.Machine

variable {n : Xlen}

/-- The memory access of an instruction: its address, from the state with pc at the next word, and its width
(20_memory.md R65, R66, 44_2op_integer.md R281). -/
def Mach.accessOf (s : Mach n) (i : Instr) : Option (Word n × Width) :=
  match i with
  | .loadx _ b c | .storex _ b c => some (s.indexed b c, .register)
  | .load _ b imm | .store _ b imm => some (s.based b imm, .register)
  | .loadr _ imm | .storer _ imm => some (s.relative imm, .register)
  | .pushr _ b | .branch _ b | .call _ b | .calli b _ | .pushpc b => some (s.reg b, .register)
  | .popr _ b | .ret b | .poppc b => some (s.topAddress b .register, .register)
  | .loadx8 _ b c | .storex8 _ b c | .loadxu8 _ b c => some (s.indexed b c, .bits8)
  | .load8 _ b imm | .store8 _ b imm | .loadu8 _ b imm => some (s.based b imm, .bits8)
  | .loadr8 _ imm | .storer8 _ imm | .loadru8 _ imm => some (s.relative imm, .bits8)
  | .push8 _ b => some (s.reg b, .bits8)
  | .pop8 _ b | .popu8 _ b => some (s.topAddress b .bits8, .bits8)
  | .loadx16 _ b c | .storex16 _ b c | .loadxu16 _ b c => some (s.indexed b c, .bits16)
  | .load16 _ b imm | .store16 _ b imm | .loadu16 _ b imm => some (s.based b imm, .bits16)
  | .loadr16 _ imm | .storer16 _ imm | .loadru16 _ imm => some (s.relative imm, .bits16)
  | .push16 _ b => some (s.reg b, .bits16)
  | .pop16 _ b | .popu16 _ b => some (s.topAddress b .bits16, .bits16)
  | .loadx32 _ b c | .storex32 _ b c | .loadxu32 _ b c => some (s.indexed b c, .bits32)
  | .load32 _ b imm | .store32 _ b imm | .loadu32 _ b imm => some (s.based b imm, .bits32)
  | .loadr32 _ imm | .storer32 _ imm | .loadru32 _ imm => some (s.relative imm, .bits32)
  | .push32 _ b => some (s.reg b, .bits32)
  | .pop32 _ b | .popu32 _ b => some (s.topAddress b .bits32, .bits32)
  | _ => none

/-! ### What a run keeps -/

/-- Memory is in its canonical form and lies inside the address space (00_scope.md R6). -/
def State.Inv (s : State) : Prop :=
  s.mach.mem.wf = true ∧ s.mach.mem.size ≤ 2 ^ s.xlen.bits

/-- The four bytes at pc lie in memory (20_memory.md R67). -/
def Mach.Fetches (s : Mach n) : Prop :=
  s.pc.toNat + 4 ≤ s.mem.size

/-- The word at pc is an instruction that has a meaning on its operands: its two destinations, if it has two, are two
registers (10_state.md R37, 60_exceptions.md R514). -/
def Mach.AtPc (s : Mach n) (i : Instr) : Prop :=
  s.Fetches ∧ decode s.fetchWord = .ok i ∧ i.hasDistinctDestinations = true

/-- A fault is one that the state it stopped in really has, read off the word at pc and the registers and devices that
the instruction there uses (60_exceptions.md R501 to R508). The stopped state still holds them all (R500). -/
def Fault.TrueOf (f : Fault) (s : Mach n) : Prop :=
  match f with
  | .illegalInstruction w =>
    s.Fetches ∧ w = s.fetchWord ∧ (∀ i, matchesRow w (tableRow i) = false) ∧ w.toNat / 2 ^ 24 ≠ 0x42
  | .memoryOutOfRange address width =>
    s.mem.size < address + width ∧
      ((address = s.pc.toNat ∧ width = 4) ∨
        ∃ i p w, s.AtPc i ∧ s.advance.accessOf i = some (p, w) ∧ address = p.toNat ∧ width = w.bytes n)
  | .divideByZero => ∃ i c d, s.AtPc i ∧ i.divides = some (c, d) ∧ uInt (s.reg d) = 0
  | .divideOverflow =>
    Config.divOverflow = .fault ∧ ∃ i c d, s.AtPc i ∧ i.dividesSigned = true ∧ i.divides = some (c, d) ∧
      sInt (s.reg c) = -2 ^ (n.bits - 1) ∧ sInt (s.reg d) = -1
  | .invalidHalcode callId =>
    s.Fetches ∧ s.fetchWord.toNat = 0x42 * 2 ^ 24 + callId.toNat ∧
      callId.toNat ∉ [0x100000, 0x100001, 0x100002, 0x100003, 0x100004, 0x100100, 0x100200]
  | .invalidDevice v =>
    ∃ i r, s.AtPc i ∧ i.deviceRegister = some r ∧ v = (s.reg r).toNat ∧ v ∉ [0, 0x1100, 0x1101]
  | .deviceNotOpen v =>
    ∃ d : TapeId, s.reg 1 = (Device.tape d).id ∧ v = (s.reg 1).toNat ∧
      ((s.AtPc .fgetc ∧ (s.tape d).mode ≠ .reading) ∨ (s.AtPc .fputc ∧ (s.tape d).mode ≠ .writing))
  | .seekOutOfRange v position =>
    ∃ d : TapeId, s.reg 0 = (Device.tape d).id ∧ v = (s.reg 0).toNat ∧ s.AtPc .fseek ∧
      position = (s.tape d).pos + sInt (s.reg 1) ∧ position < 0

/-- The status never records a fault that did not happen. -/
def State.FaultInv (s : State) : Prop :=
  ∀ f, s.mach.status = .faulted f → f.TrueOf s.mach

/-- A machine with other device contents. -/
def Mach.withDevices (s : Mach n) (tape1 tape2 : Tape) (tty : Tty) : Mach n :=
  { s with tape1 := tape1, tape2 := tape2, tty := tty }

/-- A state with other device contents. -/
def State.withDevices (s : State) (tape1 tape2 : Tape) (tty : Tty) : State :=
  (s.mach.withDevices tape1 tape2 tty).toState

/-- An outcome with a function applied to its next state. -/
def mapNext (f : State → State) (r : Result) : Result :=
  match r with
  | .next s => .next (f s)
  | .fault e => .fault e
  | .refused e => .refused e

end Sys2Proof.Machine
end

