-- ==== Sys2Proof/Certificates/Slice0/Obligations.lean ====
section
/-!
DEFINITION. Obligations: the statements about the machine that the provers prove. The terms they are stated in are those
of Sys2Proof/Safety.lean: the spec's own arithmetic over integers, and what an instruction leaves unchanged.
-/

section

open Sys2Proof Sys2Proof.Machine

/-- Decoding an encoded instruction gives it back, for all 209 instructions (30_encoding.md R92 to R100, 30_encoding.md
R104). -/
def Obligations.DecodeEncode : Prop :=
  ∀ i : Instr, decode (encode i) = .ok i

/-- No bit of a decoded word is dropped: encoding what a word decodes to gives the word (30_encoding.md R104,
30_encoding.md R114). -/
def Obligations.EncodeDecode : Prop :=
  ∀ (w : InstrWord) (i : Instr), decode w = .ok i → encode i = w

/-- The decoder selects exactly the row of the opcode table whose match and mask the word meets (R104). -/
def Obligations.DecodeFollowsTable : Prop :=
  ∀ w : InstrWord,
    (∀ i, decode w = .ok i → matchesRow w (tableRow i) = true) ∧
    (∀ j, matchesRow w (tableRow j) = true → ∃ i, decode w = .ok i ∧ tableRow i = tableRow j)

/-- A step on a word that matches no row faults: InvalidHalcode under first byte 0x42, IllegalInstruction otherwise
(R108). -/
def Obligations.DecodeRejects : Prop :=
  ∀ (n : Xlen) (s : Mach n), s.status = .running → s.pc.toNat + 4 ≤ s.mem.size →
    (∀ i, matchesRow s.fetchWord (tableRow i) = false) →
    ∃ t : Mach n, step s.toState = .next t.toState ∧ t.pc = s.pc ∧ KeepsRegs s t [] ∧ KeepsMemory s t ∧ KeepsDevices s t ∧
      (s.fetchWord.toNat / 2 ^ 24 = 0x42 →
        t.status = .faulted (.invalidHalcode (BitVec.ofNat 24 s.fetchWord.toNat))) ∧
      (s.fetchWord.toNat / 2 ^ 24 ≠ 0x42 → t.status = .faulted (.illegalInstruction s.fetchWord))

/-- Words written out from the rows of the listing decode to their instructions (95_test_vectors.md Part 1,
30_encoding.md R93 to R100). -/
def Obligations.DecodeOfWrittenWords : Prop :=
  decode 0x00000000 = .ok (.nop 0) ∧
    decode 0x01040123 = .ok (.adduCo 0 1 2 3) ∧
    decode 0x0500012F = .ok (.add 1 2 15) ∧
    decode 0x0902000F = .ok (.pushr 0 15) ∧
    decode 0x0D01001F = .ok (.ret 15) ∧
    decode 0x0E12FFFC = .ok (.addi 1 2 0xFFFC) ∧
    decode 0x2CA1FFF4 = .ok (.jumpNz 1 0xFFF4) ∧
    decode 0x3C00FFF0 = .ok (.jump 0xFFF0) ∧
    decode 0x42100100 = .ok .fgetc ∧
    decode 0xA14C8000 = .ok (.cmpskipuiLe 12 0x8000) ∧
    decode 0xFFFFFFFF = .ok (.halt 0xFFFFFF)

/-- A step of a running machine runs the instruction decoded at pc, with pc moved past it (10_state.md R33,
70_reset_and_hazards.md R546). -/
def Obligations.StepRunsDecodedInstruction : Prop :=
  ∀ (n : Xlen) (s : Mach n) (i : Instr), s.status = .running → s.pc.toNat + 4 ≤ s.mem.size →
    decode s.fetchWord = .ok i →
    step s.toState = exec i s.advance.toState ∧
      s.advance.pc = wordOf (uInt s.pc + 4) ∧ s.advance.mem = s.mem ∧ OnlyRegs s s.advance []

/-- The fetched word is the four bytes at pc, first byte most significant, and sees every earlier store (20_memory.md
R62, 20_memory.md R73). -/
def Obligations.FetchReadsMemory : Prop :=
  ∀ n : Xlen, (∀ s : Mach n, s.fetchWord.toNat =
        (s.mem.get s.pc.toNat).toNat * 2 ^ 24 + (s.mem.get (s.pc.toNat + 1)).toNat * 2 ^ 16 +
        (s.mem.get (s.pc.toNat + 2)).toNat * 2 ^ 8 + (s.mem.get (s.pc.toNat + 3)).toNat) ∧
    (∀ (s : Mach n) (a b c : Reg), s.indexed b c = s.pc → s.pc.toNat + 4 ≤ s.mem.size →
      SetsReg (.loadxu32 a b c) s a (wordOf s.fetchWord.toNat)) ∧
    (∀ (s : Mach n) (a : Reg), s.pc.toNat + 4 ≤ s.mem.size →
      ∃ t : Mach n, exec (.storer32 a 0) s.toState = .next t.toState ∧ t.pc = s.pc ∧
        t.fetchWord.toNat = (s.reg a).toNat % 2 ^ 32)

/-- A fetch that does not fit in memory raises MemoryOutOfRange(pc, 4), before any decoding (20_memory.md R67,
60_exceptions.md R502, 60_exceptions.md R514). -/
def Obligations.FetchOutOfRangeFaults : Prop :=
  ∀ (n : Xlen) (s : Mach n), s.status = .running → s.mem.size < s.pc.toNat + 4 →
    step s.toState = .next (s.setStatus (.faulted (.memoryOutOfRange s.pc.toNat 4))).toState

/-- A halted or faulted machine stays as it is; HALT and every fault make it so; nothing else ends a run (R41). -/
def Obligations.FinalStateIsUnchanged : Prop :=
  State.reset.mach.status = .running ∧
    (∀ s : State, s.mach.status ≠ .running → step s = .next s) ∧
    (∀ (n : Xlen) (s : Mach n) (v : BitVec 24), ∃ t : Mach n, exec (.halt v) s.toState = .next t.toState ∧
      t.status = .halted) ∧
    (∀ s t : State, s.mach.status = .running → step s = .next t →
      t.mach.status = .running ∨ (t.mach.status = .halted ∧ ∃ v, decode s.mach.fetchWord = .ok (.halt v)) ∨
        ∃ f, t.mach.status = .faulted f)

/-- Every fault leaves exactly the state before the instruction, with pc at it and status Faulted (R500). -/
def Obligations.FaultsArePrecise : Prop :=
  ∀ (s t : State) (f : Fault), s.mach.status = .running → step s = .next t → t.mach.status = .faulted f →
    t = (s.mach.setStatus (.faulted f)).toState ∧ step t = .next t

/-- Every step keeps: a Faulted status records a fault the stopped state really has, read off the word at pc and its
operands (60_exceptions.md R500 to R508, 60_exceptions.md R514). -/
def Obligations.FaultRecordsTrueCause : Prop :=
  State.reset.FaultInv ∧ ∀ s t : State, s.FaultInv → step s = .next t → t.FaultInv

/-- Every step keeps memory in canonical form, inside the address space, and XLEN and MEMSIZE unchanged (20_memory.md
R60, 20_memory.md R67, 00_scope.md R5, 00_scope.md R6). -/
def Obligations.InvariantKept : Prop :=
  ∀ s t : State, s.Inv → step s = .next t → t.Inv ∧ t.mach.mem.size = s.mach.mem.size ∧ t.xlen = s.xlen

/-- The reset state has its memory in canonical form (70_reset_and_hazards.md R541, 00_scope.md R6). -/
def Obligations.InvariantAtReset : Prop :=
  State.reset.Inv

/-- The state after reset: registers and pc 0, memory 0x00, tapes closed and empty at 0, tty empty, running
(70_reset_and_hazards.md R541, 10_state.md R44 to R46, 00_scope.md R5, 00_scope.md R8). The model chooses XLEN = 32
and zero registers and pc among the values that R5 and R8 allow (logs 1 and 8), and a run with no input (log 9). -/
def Obligations.ResetValues : Prop :=
  State.reset.xlen.bits = 32 ∧
    (∀ r : Reg, State.reset.mach.reg r = 0) ∧ State.reset.mach.pc = 0 ∧ (∀ a, State.reset.mach.mem.get a = 0) ∧
    (∀ d : TapeId, (State.reset.mach.tape d).cells = [] ∧ (State.reset.mach.tape d).pos = 0 ∧
      (State.reset.mach.tape d).mode = .closed) ∧
    State.reset.mach.tty.input = [] ∧ State.reset.mach.tty.output = [] ∧ State.reset.mach.status = .running

/-- Booting with an image places its bytes from address 0, zeros after it, in canonical form, and every other input
where it belongs (70_reset_and_hazards.md R543, 70_reset_and_hazards.md R541, 70_reset_and_hazards.md R544,
70_reset_and_hazards.md R545, 10_state.md R44 to R46, 00_scope.md R5 to R8). The model chooses: the default inputs,
and so the values at State.reset (logs 1, 2, 8 and 9); that a byte no list of cells holds reads as 0x00 (log 16);
that boot takes the parameters and inputs of a run as one value (log 9). -/
def Obligations.BootPlacesImage : Prop :=
  (∀ (n : Xlen) (inputs : RunInputs n), 8 ≤ inputs.memSize → inputs.memSize ≤ 2 ^ n.bits →
      inputs.image.length ≤ inputs.memSize →
      (∀ j, (Mach.boot inputs).mem.get j = (inputs.image[j]?).getD 0) ∧
      (Mach.boot inputs).mem.size = inputs.memSize ∧ (Mach.boot inputs).toState.Inv ∧
      (∀ r, (Mach.boot inputs).reg r = inputs.resetRegs.get r) ∧ (Mach.boot inputs).pc = inputs.resetPc ∧
      (Mach.boot inputs).tape1 = { cells := inputs.tape1, pos := 0, mode := .closed } ∧
      (Mach.boot inputs).tape2 = { cells := inputs.tape2, pos := 0, mode := .closed } ∧
      (Mach.boot inputs).tty = { input := inputs.keyboard, output := [] } ∧ (Mach.boot inputs).status = .running) ∧
    (Mach.boot RunInputs.default).toState = State.reset

/-- Effective addresses are the integer sums of the rules modulo 2^n; the bytes of one access do not wrap (R66). -/
def Obligations.EffectiveAddresses : Prop :=
  ∀ n : Xlen, (∀ (s : Mach n) (b c : Reg), s.indexed b c = wordOf (uInt (s.reg b) + uInt (s.reg c))) ∧
    (∀ (s : Mach n) (b : Reg) (imm : Imm16), s.based b imm = wordOf (uInt (s.reg b) + sImm imm)) ∧
    (∀ (s : Mach n) (imm : Imm16), s.relative imm = wordOf (uInt s.pc + sImm imm)) ∧
    (∀ (s : Mach n) (b : Reg) (w : Width), s.topAddress b w = wordOf (uInt (s.reg b) - w.bytes n)) ∧
    (∀ (s : Mach n) (p : Word n) (k : Nat), s.inRange p k = true ↔ p.toNat + k ≤ s.mem.size)

/-- After a k-byte write, every read of any width sees exactly the written bytes and the old ones elsewhere (R63). -/
def Obligations.MixedWidthAccess : Prop :=
  ∀ (m : Memory) (a k v b j : Nat),
    (m.writeBE a k v).readBE b j =
      ∑ i ∈ Finset.range j,
        (if a ≤ b + i ∧ b + i < a + k then v / 256 ^ (k - 1 - (b + i - a)) % 256 else (m.get (b + i)).toNat) *
          256 ^ (j - 1 - i) ∧
    (m.writeBE a k v).readBE a k = v % 256 ^ k

/-- Every word with first byte 00 or FF decodes to NOP or HALT; NOP changes nothing and HALT only the status (R140,
R141). -/
def Obligations.NopAndHalt : Prop :=
  (∀ w : InstrWord, (w.toNat / 2 ^ 24 = 0x00 → decode w = .ok (.nop (BitVec.ofNat 24 w.toNat))) ∧
      (w.toNat / 2 ^ 24 = 0xFF → decode w = .ok (.halt (BitVec.ofNat 24 w.toNat)))) ∧
    ∀ (n : Xlen) (s : Mach n) (v : BitVec 24),
    exec (.nop v) s.toState = .next s.toState ∧
    ∃ t : Mach n, exec (.halt v) s.toState = .next t.toState ∧ t.status = .halted ∧ t.pc = s.pc ∧
      KeepsRegs s t [] ∧ KeepsMemory s t ∧ KeepsDevices s t

/-- ADD.CI, ADDU.CI, SUB.BI, SUBU.BI: the sum or difference with the carry or borrow bit of x[d], modulo 2^n (R153,
R156, R159, R162). -/
def Obligations.AddSubWithCarryIn : Prop :=
  ∀ (n : Xlen) (s : Mach n) (a b c d : Reg),
    SetsReg (.addCi a b c d) s a (wordOf (uInt (s.reg b) + uInt (s.reg c) + bitInt (bitOf (s.reg d) 5))) ∧
    SetsReg (.adduCi a b c d) s a (wordOf (uInt (s.reg b) + uInt (s.reg c) + bitInt (bitOf (s.reg d) 5))) ∧
    SetsReg (.subBi a b c d) s a (wordOf (uInt (s.reg b) - uInt (s.reg c) - bitInt (bitOf (s.reg d) 4))) ∧
    SetsReg (.subuBi a b c d) s a (wordOf (uInt (s.reg b) - uInt (s.reg c) - bitInt (bitOf (s.reg d) 4)))

/-- ADD.CO, ADD.CIO, ADDU.CO, ADDU.CIO with distinct a and d: the sum, and the carry in bit 5 of x[d] alone (R154, R155,
R157, R158). -/
def Obligations.AddWithCarryOut : Prop :=
  ∀ (n : Xlen) (s : Mach n) (a b c d : Reg),
    (a ≠ d →
    SetsRegAndFlag (.addCo a b c d) s a d (wordOf (uInt (s.reg b) + uInt (s.reg c))) 5
      (Config.scarry (s.reg b) (s.reg c) false) ∧
    SetsRegAndFlag (.addCio a b c d) s a d (wordOf (uInt (s.reg b) + uInt (s.reg c) + bitInt (bitOf (s.reg d) 5))) 5
      (Config.scarry (s.reg b) (s.reg c) (bitOf (s.reg d) 5)) ∧
    SetsRegAndFlag (.adduCo a b c d) s a d (wordOf (uInt (s.reg b) + uInt (s.reg c))) 5
      (decide (2 ^ n.bits ≤ uInt (s.reg b) + uInt (s.reg c))) ∧
    SetsRegAndFlag (.adduCio a b c d) s a d (wordOf (uInt (s.reg b) + uInt (s.reg c) + bitInt (bitOf (s.reg d) 5))) 5
      (decide (2 ^ n.bits ≤ uInt (s.reg b) + uInt (s.reg c) + bitInt (bitOf (s.reg d) 5)))) ∧
    (a = d → ∀ i ∈ [Instr.addCo a b c d, .addCio a b c d, .adduCo a b c d, .adduCio a b c d],
      exec i s.toState = .refused .coincidingDestinations)

/-- SUB.BO, SUB.BIO, SUBU.BO, SUBU.BIO with distinct a and d: the difference, and the borrow in bit 4 of x[d] alone
(R160, R161, R163, R164). -/
def Obligations.SubWithBorrowOut : Prop :=
  ∀ (n : Xlen) (s : Mach n) (a b c d : Reg),
    (a ≠ d →
    SetsRegAndFlag (.subBo a b c d) s a d (wordOf (uInt (s.reg b) - uInt (s.reg c))) 4
      (Config.sborrow (s.reg b) (s.reg c) false) ∧
    SetsRegAndFlag (.subBio a b c d) s a d (wordOf (uInt (s.reg b) - uInt (s.reg c) - bitInt (bitOf (s.reg d) 4))) 4
      (Config.sborrow (s.reg b) (s.reg c) (bitOf (s.reg d) 4)) ∧
    SetsRegAndFlag (.subuBo a b c d) s a d (wordOf (uInt (s.reg b) - uInt (s.reg c))) 4
      (decide (uInt (s.reg b) < uInt (s.reg c))) ∧
    SetsRegAndFlag (.subuBio a b c d) s a d (wordOf (uInt (s.reg b) - uInt (s.reg c) - bitInt (bitOf (s.reg d) 4))) 4
      (decide (uInt (s.reg b) < uInt (s.reg c) + bitInt (bitOf (s.reg d) 4)))) ∧
    (a = d → ∀ i ∈ [Instr.subBo a b c d, .subBio a b c d, .subuBo a b c d, .subuBio a b c d],
      exec i s.toState = .refused .coincidingDestinations)

/-- ADDU.CO then ADDU.CI with one flag register add two 2n-bit numbers modulo 2^(2n), in whatever registers they are
(41_4op_integer.md R157, 41_4op_integer.md R156, 41_4op_integer.md R151). -/
def Obligations.CarryChainAddsDoubleWords : Prop :=
  ∀ (n : Xlen) (s : Mach n) (lo b c f hi b2 c2 : Reg), lo ≠ f → hi ≠ lo → b2 ≠ lo → b2 ≠ f → c2 ≠ lo → c2 ≠ f →
    ∃ t u : Mach n, exec (.adduCo lo b c f) s.toState = .next t.toState ∧
      exec (.adduCi hi b2 c2 f) t.toState = .next u.toState ∧
      uInt (u.reg hi) * 2 ^ n.bits + uInt (u.reg lo) =
        (uInt (s.reg b2) * 2 ^ n.bits + uInt (s.reg b) + (uInt (s.reg c2) * 2 ^ n.bits + uInt (s.reg c))) %
          2 ^ (2 * n.bits)

/-- MULTIPLY and MULTIPLYU with distinct a and b: the exact 2n-bit product in two registers (R165, R166). -/
def Obligations.FullProducts : Prop :=
  ∀ (n : Xlen) (s : Mach n) (a b c d : Reg),
    (a ≠ b →
    (SetsPair (.multiply a b c d) s a b (wordOf (sInt (s.reg c) * sInt (s.reg d)))
        (wordOf (sInt (s.reg c) * sInt (s.reg d) / 2 ^ n.bits)) ∧
      ∃ t : Mach n, exec (.multiply a b c d) s.toState = .next t.toState ∧
        sInt (t.reg b) * 2 ^ n.bits + uInt (t.reg a) = sInt (s.reg c) * sInt (s.reg d)) ∧
    (SetsPair (.multiplyu a b c d) s a b (wordOf (uInt (s.reg c) * uInt (s.reg d)))
        (wordOf (uInt (s.reg c) * uInt (s.reg d) / 2 ^ n.bits)) ∧
      ∃ t : Mach n, exec (.multiplyu a b c d) s.toState = .next t.toState ∧
        uInt (t.reg b) * 2 ^ n.bits + uInt (t.reg a) = uInt (s.reg c) * uInt (s.reg d))) ∧
    (a = b → ∀ i ∈ [Instr.multiply a b c d, .multiplyu a b c d],
      exec i s.toState = .refused .coincidingDestinations)

/-- Division: quotient truncated toward zero and its remainder, zero divisors and the overflow corner as the rules say
(R167, R168, R192, R193, R194, R195). -/
def Obligations.DivisionResults : Prop :=
  ∀ (n : Xlen) (s : Mach n) (a b c d : Reg),
    (sInt (s.reg d) ≠ 0 → ¬(sInt (s.reg c) = -2 ^ (n.bits - 1) ∧ sInt (s.reg d) = -1) →
      (a ≠ b → ∃ q r, SetsPair (.divide a b c d) s a b q r ∧ sInt q = (sInt (s.reg c)).tdiv (sInt (s.reg d)) ∧
        sInt r = sInt (s.reg c) - (sInt (s.reg c)).tdiv (sInt (s.reg d)) * sInt (s.reg d)) ∧
      (∃ q, SetsReg (.div a c d) s a q ∧ sInt q = (sInt (s.reg c)).tdiv (sInt (s.reg d))) ∧
      (∃ r, SetsReg (.mod a c d) s a r ∧
        sInt r = sInt (s.reg c) - (sInt (s.reg c)).tdiv (sInt (s.reg d)) * sInt (s.reg d))) ∧
    (uInt (s.reg d) ≠ 0 →
      (a ≠ b → SetsPair (.divideu a b c d) s a b (wordOf (uInt (s.reg c) / uInt (s.reg d)))
        (wordOf (uInt (s.reg c) % uInt (s.reg d)))) ∧
      SetsReg (.divu a c d) s a (wordOf (uInt (s.reg c) / uInt (s.reg d))) ∧
      SetsReg (.modu a c d) s a (wordOf (uInt (s.reg c) % uInt (s.reg d)))) ∧
    (uInt (s.reg d) = 0 →
      (a ≠ b → RaisesFault (.divide a b c d) s .divideByZero ∧ RaisesFault (.divideu a b c d) s .divideByZero) ∧
      RaisesFault (.div a c d) s .divideByZero ∧ RaisesFault (.mod a c d) s .divideByZero ∧
      RaisesFault (.divu a c d) s .divideByZero ∧ RaisesFault (.modu a c d) s .divideByZero) ∧
    (sInt (s.reg c) = -2 ^ (n.bits - 1) → sInt (s.reg d) = -1 →
      match Config.divOverflow with
      | .fault =>
        (a ≠ b → RaisesFault (.divide a b c d) s .divideOverflow) ∧
        RaisesFault (.div a c d) s .divideOverflow ∧ RaisesFault (.mod a c d) s .divideOverflow
      | .wrap =>
        (a ≠ b → SetsPair (.divide a b c d) s a b (wordOf (-2 ^ (n.bits - 1))) 0) ∧
        SetsReg (.div a c d) s a (wordOf (-2 ^ (n.bits - 1))) ∧ SetsReg (.mod a c d) s a 0) ∧
    (a = b → exec (.divide a b c d) s.toState = .refused .coincidingDestinations ∧
      exec (.divideu a b c d) s.toState = .refused .coincidingDestinations)

/-- MUX, NMUX and the ten two-operand logic instructions act bit by bit (R169, R170, R208, R209, R210, R211, R212, R213,
R214, R215, R216, R217). -/
def Obligations.BitwiseOperations : Prop :=
  ∀ (n : Xlen) (s : Mach n) (a b c d : Reg),
    SetsBits (.mux a b c d) s a (fun k => (bitOf (s.reg c) k && !bitOf (s.reg b) k) || (bitOf (s.reg d) k && bitOf (s.reg b) k)) ∧
    SetsBits (.nmux a b c d) s a (fun k => (bitOf (s.reg c) k && bitOf (s.reg b) k) || (bitOf (s.reg d) k && !bitOf (s.reg b) k)) ∧
    SetsBits (.and a b c) s a (fun k => bitOf (s.reg b) k && bitOf (s.reg c) k) ∧
    SetsBits (.or a b c) s a (fun k => bitOf (s.reg b) k || bitOf (s.reg c) k) ∧
    SetsBits (.xor a b c) s a (fun k => bitOf (s.reg b) k != bitOf (s.reg c) k) ∧
    SetsBits (.nand a b c) s a (fun k => !(bitOf (s.reg b) k && bitOf (s.reg c) k)) ∧
    SetsBits (.nor a b c) s a (fun k => !(bitOf (s.reg b) k || bitOf (s.reg c) k)) ∧
    SetsBits (.xnor a b c) s a (fun k => bitOf (s.reg b) k == bitOf (s.reg c) k) ∧
    SetsBits (.mpq a b c) s a (fun k => !bitOf (s.reg b) k && bitOf (s.reg c) k) ∧
    SetsBits (.lpq a b c) s a (fun k => bitOf (s.reg b) k && !bitOf (s.reg c) k) ∧
    SetsBits (.cpq a b c) s a (fun k => !bitOf (s.reg b) k || bitOf (s.reg c) k) ∧
    SetsBits (.bpq a b c) s a (fun k => bitOf (s.reg b) k || !bitOf (s.reg c) k)

/-- ADDI, ADDUI, SUBI, SUBUI and the six logic immediates: the formula of the rule on x[b] and the extended immediate
(R351, R352, R353, R354, R471, R472, R473, R474, R475, R476). -/
def Obligations.ImmediateArithmeticAndLogic : Prop :=
  ∀ (n : Xlen) (s : Mach n) (a b : Reg) (imm : Imm16),
    SetsReg (.addi a b imm) s a (wordOf (uInt (s.reg b) + sImm imm)) ∧
    SetsReg (.addui a b imm) s a (wordOf (uInt (s.reg b) + uImm imm)) ∧
    SetsReg (.subi a b imm) s a (wordOf (uInt (s.reg b) - sImm imm)) ∧
    SetsReg (.subui a b imm) s a (wordOf (uInt (s.reg b) - uImm imm)) ∧
    SetsBits (.andi a b imm) s a (fun k => bitOf (s.reg b) k && imm.getLsbD (min k 15)) ∧
    SetsBits (.ori a b imm) s a (fun k => bitOf (s.reg b) k || imm.getLsbD (min k 15)) ∧
    SetsBits (.xori a b imm) s a (fun k => bitOf (s.reg b) k != imm.getLsbD (min k 15)) ∧
    SetsBits (.nandi a b imm) s a (fun k => !(bitOf (s.reg b) k && imm.getLsbD (min k 15))) ∧
    SetsBits (.nori a b imm) s a (fun k => !(bitOf (s.reg b) k || imm.getLsbD (min k 15))) ∧
    SetsBits (.xnori a b imm) s a (fun k => bitOf (s.reg b) k == imm.getLsbD (min k 15))

/-- MAX, MIN, SORT and their unsigned forms give the larger and the smaller value (R171, R172, R196, R197, R198, R199). -/
def Obligations.SortMaxMin : Prop :=
  ∀ (n : Xlen) (s : Mach n) (a b c d : Reg),
    (a ≠ b →
      (∃ hi lo, SetsPair (.sort a b c d) s a b hi lo ∧ sInt hi = max (sInt (s.reg c)) (sInt (s.reg d)) ∧
        sInt lo = min (sInt (s.reg c)) (sInt (s.reg d))) ∧
      (∃ hi lo, SetsPair (.sortu a b c d) s a b hi lo ∧ uInt hi = max (uInt (s.reg c)) (uInt (s.reg d)) ∧
        uInt lo = min (uInt (s.reg c)) (uInt (s.reg d)))) ∧
    (a = b → exec (.sort a b c d) s.toState = .refused .coincidingDestinations ∧
      exec (.sortu a b c d) s.toState = .refused .coincidingDestinations) ∧
    (∃ v, SetsReg (.max a c d) s a v ∧ sInt v = max (sInt (s.reg c)) (sInt (s.reg d))) ∧
    (∃ v, SetsReg (.maxu a c d) s a v ∧ uInt v = max (uInt (s.reg c)) (uInt (s.reg d))) ∧
    (∃ v, SetsReg (.min a c d) s a v ∧ sInt v = min (sInt (s.reg c)) (sInt (s.reg d))) ∧
    (∃ v, SetsReg (.minu a c d) s a v ∧ uInt v = min (uInt (s.reg c)) (uInt (s.reg d)))

/-- ADD, ADDU, SUB, SUBU, MUL, MULH, MULU, MULUH: the integer formula of the rule modulo 2^n (R182, R183, R184, R185,
R188, R189, R190, R191). -/
def Obligations.AddSubMul : Prop :=
  ∀ (n : Xlen) (s : Mach n) (a b c : Reg),
    SetsReg (.add a b c) s a (wordOf (uInt (s.reg b) + uInt (s.reg c))) ∧
    SetsReg (.addu a b c) s a (wordOf (uInt (s.reg b) + uInt (s.reg c))) ∧
    SetsReg (.sub a b c) s a (wordOf (uInt (s.reg b) - uInt (s.reg c))) ∧
    SetsReg (.subu a b c) s a (wordOf (uInt (s.reg b) - uInt (s.reg c))) ∧
    SetsReg (.mul a b c) s a (wordOf (sInt (s.reg b) * sInt (s.reg c))) ∧
    SetsReg (.mulh a b c) s a (wordOf (sInt (s.reg b) * sInt (s.reg c) / 2 ^ n.bits)) ∧
    SetsReg (.mulu a b c) s a (wordOf (uInt (s.reg b) * uInt (s.reg c))) ∧
    SetsReg (.muluh a b c) s a (wordOf (uInt (s.reg b) * uInt (s.reg c) / 2 ^ n.bits))

/-- CMP, CMPU, CMPI, CMPUI write exactly one of the Greater, Equal and Less bits to the whole register (R186, R187,
R355, R363). -/
def Obligations.CompareResults : Prop :=
  ∀ (n : Xlen) (s : Mach n) (a b c : Reg) (imm : Imm16),
    SetsReg (.cmp a b c) s a (if sInt (s.reg b) > sInt (s.reg c) then 4 else if sInt (s.reg b) = sInt (s.reg c) then 2 else 1) ∧
    SetsReg (.cmpu a b c) s a (if uInt (s.reg b) > uInt (s.reg c) then 4 else if uInt (s.reg b) = uInt (s.reg c) then 2 else 1) ∧
    SetsReg (.cmpi a b imm) s a (if sInt (s.reg b) > sImm imm then 4 else if sInt (s.reg b) = sImm imm then 2 else 1) ∧
    SetsReg (.cmpui a b imm) s a (if uInt (s.reg b) > uImm imm then 4 else if uInt (s.reg b) = uImm imm then 2 else 1)

/-- CMP then JUMP.x on its result goes where CMPJUMPI.x goes from the same pc (42_3op_integer_alu.md R186,
47_1opi_0opi.md R385 to R390, 49_high_immediate_groups.md R477 to R482). -/
def Obligations.CompareThenJump : Prop :=
  ∀ (n : Xlen) (s : Mach n) (a b c : Reg) (imm : Imm16),
    ∀ p ∈ [(Instr.jumpG c imm, Instr.cmpjumpiG a b imm), (.jumpGe c imm, .cmpjumpiGe a b imm),
      (.jumpE c imm, .cmpjumpiE a b imm), (.jumpNe c imm, .cmpjumpiNe a b imm),
      (.jumpLe c imm, .cmpjumpiLe a b imm), (.jumpL c imm, .cmpjumpiL a b imm)],
    ∃ t u v : Mach n, exec (.cmp c a b) s.toState = .next t.toState ∧ exec p.1 t.toState = .next u.toState ∧
      exec p.2 s.toState = .next v.toState ∧ u.pc = v.pc

/-- The six shifts by a register and the six by an immediate, for every count (R218, R219, R220, R221, R222, R223, R398,
R399, R400, R401, R402, R403). -/
def Obligations.Shifts : Prop :=
  ∀ n : Xlen, (∀ (s : Mach n) (a b c : Reg),
    SetsReg (.sal a b c) s a (wordOf (uInt (s.reg b) * 2 ^ (min (s.reg c).toNat n.bits))) ∧
    SetsReg (.sar a b c) s a (wordOf (sInt (s.reg b) / 2 ^ (min (s.reg c).toNat n.bits))) ∧
    SetsReg (.sl0 a b c) s a (wordOf (uInt (s.reg b) * 2 ^ (min (s.reg c).toNat n.bits))) ∧
    SetsReg (.sr0 a b c) s a (wordOf (uInt (s.reg b) / 2 ^ (min (s.reg c).toNat n.bits))) ∧
    SetsReg (.sl1 a b c) s a (wordOf (uInt (s.reg b) * 2 ^ (min (s.reg c).toNat n.bits) + (2 ^ (min (s.reg c).toNat n.bits) - 1))) ∧
    SetsReg (.sr1 a b c) s a (wordOf (uInt (s.reg b) / 2 ^ (min (s.reg c).toNat n.bits) + (2 ^ (min (s.reg c).toNat n.bits) - 1) * 2 ^ (n.bits - (min (s.reg c).toNat n.bits))))) ∧
    (∀ (s : Mach n) (a : Reg) (imm : Imm16),
    SetsReg (.sali a imm) s a (wordOf (uInt (s.reg a) * 2 ^ (min (wordOf (sImm imm) : Word n).toNat n.bits))) ∧
    SetsReg (.sari a imm) s a (wordOf (sInt (s.reg a) / 2 ^ (min (wordOf (sImm imm) : Word n).toNat n.bits))) ∧
    SetsReg (.sl0i a imm) s a (wordOf (uInt (s.reg a) * 2 ^ (min (wordOf (sImm imm) : Word n).toNat n.bits))) ∧
    SetsReg (.sr0i a imm) s a (wordOf (uInt (s.reg a) / 2 ^ (min (wordOf (sImm imm) : Word n).toNat n.bits))) ∧
    SetsReg (.sl1i a imm) s a (wordOf (uInt (s.reg a) * 2 ^ (min (wordOf (sImm imm) : Word n).toNat n.bits) + (2 ^ (min (wordOf (sImm imm) : Word n).toNat n.bits) - 1))) ∧
    SetsReg (.sr1i a imm) s a (wordOf (uInt (s.reg a) / 2 ^ (min (wordOf (sImm imm) : Word n).toNat n.bits) + (2 ^ (min (wordOf (sImm imm) : Word n).toNat n.bits) - 1) * 2 ^ (n.bits - (min (wordOf (sImm imm) : Word n).toNat n.bits)))))

/-- ROL and ROR move every bit by the count modulo n, in a circle (R224, R225). -/
def Obligations.Rotates : Prop :=
  ∀ (n : Xlen) (s : Mach n) (a b c : Reg),
    SetsBits (.rol a b c) s a (fun k =>
      bitOf (s.reg b) ((k + (n.bits - (s.reg c).toNat % n.bits)) % n.bits)) ∧
    SetsBits (.ror a b c) s a (fun k => bitOf (s.reg b) ((k + (s.reg c).toNat) % n.bits))

/-- PACK, UNPACK and the six PACKn.CO instructions are refused: no next state (R200, R201, R202, R203, R204, R205, R206,
R207, R510). -/
def Obligations.PackIsRefused : Prop :=
  (∀ (n : Xlen) (s : Mach n) (a b c : Reg),
      exec (.pack a b c) s.toState = .refused .unspecifiedSemantics ∧
      exec (.unpack a b c) s.toState = .refused .unspecifiedSemantics ∧
      exec (.pack8Co a b c) s.toState = .refused .unspecifiedSemantics ∧
      exec (.pack8uCo a b c) s.toState = .refused .unspecifiedSemantics ∧
      exec (.pack16Co a b c) s.toState = .refused .unspecifiedSemantics ∧
      exec (.pack16uCo a b c) s.toState = .refused .unspecifiedSemantics ∧
      exec (.pack32Co a b c) s.toState = .refused .unspecifiedSemantics ∧
      exec (.pack32uCo a b c) s.toState = .refused .unspecifiedSemantics) ∧
    (∀ (i : Instr) (s : State), exec i s = .refused .unspecifiedSemantics → i.isPack = true)

/-- Exactly the 22 encodings with two destinations in one register are refused so; every other instruction answers a
next state (10_state.md R37, 60_exceptions.md R509, 60_exceptions.md R500, 60_exceptions.md R510,
70_reset_and_hazards.md R546). That no meaning answers a fault outcome, since a fault of R500 is a next state with
status Faulted, is the model's reading of R500 and R546 (log 10). That every other instruction answers a next state
follows from the rules of all instructions together and is no sentence of R37 or R509. -/
def Obligations.CoincidingDestinationsRefused : Prop :=
  ∀ (i : Instr) (n : Xlen) (s : Mach n),
    (exec i s.toState = .refused .coincidingDestinations ↔ i.hasDistinctDestinations = false) ∧
    (∀ f, exec i s.toState ≠ .fault f) ∧
    (i.hasDistinctDestinations = true → i.isPack = false → ∃ t : Mach n, exec i s.toState = .next t.toState)

/-- Indexed loads LOADX to LOADXU32: the big-endian datum in range, sign- or zero-extended, into x[a] alone (R242, R243,
R244, R245, R246, R247, R248). -/
def Obligations.IndexedLoads : Prop :=
  ∀ (n : Xlen) (s : Mach n) (a b c : Reg),
    (s.indexed b c = wordOf (uInt (s.reg b) + uInt (s.reg c))) ∧
      LoadsReg (.loadx a b c) s a (s.indexed b c) n.bytes .zero ∧
      LoadsReg (.loadx8 a b c) s a (s.indexed b c) 1 .signed ∧
      LoadsReg (.loadxu8 a b c) s a (s.indexed b c) 1 .zero ∧
      LoadsReg (.loadx16 a b c) s a (s.indexed b c) 2 .signed ∧
      LoadsReg (.loadxu16 a b c) s a (s.indexed b c) 2 .zero ∧
      LoadsReg (.loadx32 a b c) s a (s.indexed b c) 4 .signed ∧
      LoadsReg (.loadxu32 a b c) s a (s.indexed b c) 4 .zero

/-- Based loads LOAD to LOADU32: the big-endian datum in range, sign- or zero-extended, into x[a] alone (R356, R357,
R358, R359, R360, R361, R362). -/
def Obligations.BasedLoads : Prop :=
  ∀ (n : Xlen) (s : Mach n) (a b : Reg) (imm : Imm16),
    (s.based b imm = wordOf (uInt (s.reg b) + sImm imm)) ∧
      LoadsReg (.load a b imm) s a (s.based b imm) n.bytes .zero ∧
      LoadsReg (.load8 a b imm) s a (s.based b imm) 1 .signed ∧
      LoadsReg (.loadu8 a b imm) s a (s.based b imm) 1 .zero ∧
      LoadsReg (.load16 a b imm) s a (s.based b imm) 2 .signed ∧
      LoadsReg (.loadu16 a b imm) s a (s.based b imm) 2 .zero ∧
      LoadsReg (.load32 a b imm) s a (s.based b imm) 4 .signed ∧
      LoadsReg (.loadu32 a b imm) s a (s.based b imm) 4 .zero

/-- Relative loads LOADR to LOADRU32: the big-endian datum in range, sign- or zero-extended, into x[a] alone (R404,
R405, R406, R407, R408, R409, R410). -/
def Obligations.RelativeLoads : Prop :=
  ∀ (n : Xlen) (s : Mach n) (a : Reg) (imm : Imm16),
    (s.relative imm = wordOf (uInt s.pc + sImm imm)) ∧
      LoadsReg (.loadr a imm) s a (s.relative imm) n.bytes .zero ∧
      LoadsReg (.loadr8 a imm) s a (s.relative imm) 1 .signed ∧
      LoadsReg (.loadru8 a imm) s a (s.relative imm) 1 .zero ∧
      LoadsReg (.loadr16 a imm) s a (s.relative imm) 2 .signed ∧
      LoadsReg (.loadru16 a imm) s a (s.relative imm) 2 .zero ∧
      LoadsReg (.loadr32 a imm) s a (s.relative imm) 4 .signed ∧
      LoadsReg (.loadru32 a imm) s a (s.relative imm) 4 .zero

/-- The twelve stores write the low bytes of x[a] big-endian at the effective address and nothing else (R249, R250,
R251, R252, R364, R365, R366, R367, R411, R412, R413, R414). -/
def Obligations.Stores : Prop :=
  ∀ (n : Xlen) (s : Mach n) (a b c : Reg) (imm : Imm16),
    s.indexed b c = wordOf (uInt (s.reg b) + uInt (s.reg c)) ∧ s.based b imm = wordOf (uInt (s.reg b) + sImm imm) ∧
    s.relative imm = wordOf (uInt s.pc + sImm imm) ∧
    StoresValue (.storex a b c) s (s.indexed b c) n.bytes (s.reg a) ∧
    StoresValue (.storex8 a b c) s (s.indexed b c) 1 (s.reg a) ∧
    StoresValue (.storex16 a b c) s (s.indexed b c) 2 (s.reg a) ∧
    StoresValue (.storex32 a b c) s (s.indexed b c) 4 (s.reg a) ∧
    StoresValue (.store a b imm) s (s.based b imm) n.bytes (s.reg a) ∧
    StoresValue (.store8 a b imm) s (s.based b imm) 1 (s.reg a) ∧
    StoresValue (.store16 a b imm) s (s.based b imm) 2 (s.reg a) ∧
    StoresValue (.store32 a b imm) s (s.based b imm) 4 (s.reg a) ∧
    StoresValue (.storer a imm) s (s.relative imm) n.bytes (s.reg a) ∧
    StoresValue (.storer8 a imm) s (s.relative imm) 1 (s.reg a) ∧
    StoresValue (.storer16 a imm) s (s.relative imm) 2 (s.reg a) ∧
    StoresValue (.storer32 a imm) s (s.relative imm) 4 (s.reg a)

/-- CMPJUMP.x and CMPJUMPU.x go to x[c] exactly when the relation holds (R253, R254, R255, R256, R257, R258, R259, R260,
R261, R262). -/
def Obligations.CompareJumpToRegister : Prop :=
  ∀ (n : Xlen) (s : Mach n) (a b c : Reg),
    GoesIf (.cmpjumpG a b c) s (sInt (s.reg a) > sInt (s.reg b)) (s.reg c) ∧
    GoesIf (.cmpjumpGe a b c) s (sInt (s.reg a) ≥ sInt (s.reg b)) (s.reg c) ∧
    GoesIf (.cmpjumpE a b c) s (sInt (s.reg a) = sInt (s.reg b)) (s.reg c) ∧
    GoesIf (.cmpjumpNe a b c) s (sInt (s.reg a) ≠ sInt (s.reg b)) (s.reg c) ∧
    GoesIf (.cmpjumpLe a b c) s (sInt (s.reg a) ≤ sInt (s.reg b)) (s.reg c) ∧
    GoesIf (.cmpjumpL a b c) s (sInt (s.reg a) < sInt (s.reg b)) (s.reg c) ∧
    GoesIf (.cmpjumpuG a b c) s (uInt (s.reg a) > uInt (s.reg b)) (s.reg c) ∧
    GoesIf (.cmpjumpuGe a b c) s (uInt (s.reg a) ≥ uInt (s.reg b)) (s.reg c) ∧
    GoesIf (.cmpjumpuLe a b c) s (uInt (s.reg a) ≤ uInt (s.reg b)) (s.reg c) ∧
    GoesIf (.cmpjumpuL a b c) s (uInt (s.reg a) < uInt (s.reg b)) (s.reg c)

/-- CMPSKIP.x and CMPSKIPU.x skip the next word exactly when the relation holds (R302, R303, R304, R305, R306, R307,
R308, R309, R310, R311). -/
def Obligations.CompareSkip : Prop :=
  ∀ (n : Xlen) (s : Mach n) (a b : Reg),
    GoesIf (.cmpskipG a b) s (sInt (s.reg a) > sInt (s.reg b)) (wordOf (uInt s.pc + 4)) ∧
    GoesIf (.cmpskipGe a b) s (sInt (s.reg a) ≥ sInt (s.reg b)) (wordOf (uInt s.pc + 4)) ∧
    GoesIf (.cmpskipE a b) s (sInt (s.reg a) = sInt (s.reg b)) (wordOf (uInt s.pc + 4)) ∧
    GoesIf (.cmpskipNe a b) s (sInt (s.reg a) ≠ sInt (s.reg b)) (wordOf (uInt s.pc + 4)) ∧
    GoesIf (.cmpskipLe a b) s (sInt (s.reg a) ≤ sInt (s.reg b)) (wordOf (uInt s.pc + 4)) ∧
    GoesIf (.cmpskipL a b) s (sInt (s.reg a) < sInt (s.reg b)) (wordOf (uInt s.pc + 4)) ∧
    GoesIf (.cmpskipuG a b) s (uInt (s.reg a) > uInt (s.reg b)) (wordOf (uInt s.pc + 4)) ∧
    GoesIf (.cmpskipuGe a b) s (uInt (s.reg a) ≥ uInt (s.reg b)) (wordOf (uInt s.pc + 4)) ∧
    GoesIf (.cmpskipuLe a b) s (uInt (s.reg a) ≤ uInt (s.reg b)) (wordOf (uInt s.pc + 4)) ∧
    GoesIf (.cmpskipuL a b) s (uInt (s.reg a) < uInt (s.reg b)) (wordOf (uInt s.pc + 4))

/-- CMPSKIPI.x and CMPSKIPUI.x skip the next word exactly when x[a] and the immediate are so related (R461, R462, R463,
R464, R465, R466, R467, R468, R469, R470). -/
def Obligations.CompareSkipImmediate : Prop :=
  ∀ (n : Xlen) (s : Mach n) (a : Reg) (imm : Imm16),
    GoesIf (.cmpskipiG a imm) s (sInt (s.reg a) > sImm imm) (wordOf (uInt s.pc + 4)) ∧
    GoesIf (.cmpskipiGe a imm) s (sInt (s.reg a) ≥ sImm imm) (wordOf (uInt s.pc + 4)) ∧
    GoesIf (.cmpskipiE a imm) s (sInt (s.reg a) = sImm imm) (wordOf (uInt s.pc + 4)) ∧
    GoesIf (.cmpskipiNe a imm) s (sInt (s.reg a) ≠ sImm imm) (wordOf (uInt s.pc + 4)) ∧
    GoesIf (.cmpskipiLe a imm) s (sInt (s.reg a) ≤ sImm imm) (wordOf (uInt s.pc + 4)) ∧
    GoesIf (.cmpskipiL a imm) s (sInt (s.reg a) < sImm imm) (wordOf (uInt s.pc + 4)) ∧
    GoesIf (.cmpskipuiG a imm) s (uInt (s.reg a) > uImm imm) (wordOf (uInt s.pc + 4)) ∧
    GoesIf (.cmpskipuiGe a imm) s (uInt (s.reg a) ≥ uImm imm) (wordOf (uInt s.pc + 4)) ∧
    GoesIf (.cmpskipuiLe a imm) s (uInt (s.reg a) ≤ uImm imm) (wordOf (uInt s.pc + 4)) ∧
    GoesIf (.cmpskipuiL a imm) s (uInt (s.reg a) < uImm imm) (wordOf (uInt s.pc + 4))

/-- CMPJUMPI.x and CMPJUMPUI.x go pc-relative exactly when the relation holds (R477, R478, R479, R480, R481, R482, R483,
R484, R485, R486). -/
def Obligations.CompareJumpRelative : Prop :=
  ∀ (n : Xlen) (s : Mach n) (a b : Reg) (imm : Imm16),
    GoesIf (.cmpjumpiG a b imm) s (sInt (s.reg a) > sInt (s.reg b)) (wordOf (uInt s.pc + sImm imm)) ∧
    GoesIf (.cmpjumpiGe a b imm) s (sInt (s.reg a) ≥ sInt (s.reg b)) (wordOf (uInt s.pc + sImm imm)) ∧
    GoesIf (.cmpjumpiE a b imm) s (sInt (s.reg a) = sInt (s.reg b)) (wordOf (uInt s.pc + sImm imm)) ∧
    GoesIf (.cmpjumpiNe a b imm) s (sInt (s.reg a) ≠ sInt (s.reg b)) (wordOf (uInt s.pc + sImm imm)) ∧
    GoesIf (.cmpjumpiLe a b imm) s (sInt (s.reg a) ≤ sInt (s.reg b)) (wordOf (uInt s.pc + sImm imm)) ∧
    GoesIf (.cmpjumpiL a b imm) s (sInt (s.reg a) < sInt (s.reg b)) (wordOf (uInt s.pc + sImm imm)) ∧
    GoesIf (.cmpjumpuiG a b imm) s (uInt (s.reg a) > uInt (s.reg b)) (wordOf (uInt s.pc + sImm imm)) ∧
    GoesIf (.cmpjumpuiGe a b imm) s (uInt (s.reg a) ≥ uInt (s.reg b)) (wordOf (uInt s.pc + sImm imm)) ∧
    GoesIf (.cmpjumpuiLe a b imm) s (uInt (s.reg a) ≤ uInt (s.reg b)) (wordOf (uInt s.pc + sImm imm)) ∧
    GoesIf (.cmpjumpuiL a b imm) s (uInt (s.reg a) < uInt (s.reg b)) (wordOf (uInt s.pc + sImm imm))

/-- NEG, ABS, NABS, SWAP, COPY, MOVE and NOT (R282, R283, R284, R285, R286, R287, R288). -/
def Obligations.UnaryOperations : Prop :=
  ∀ (n : Xlen) (s : Mach n) (a b : Reg),
    (0 ≤ sInt (s.reg b) → SetsReg (.neg a b) s a (wordOf (-sInt (s.reg b)))) ∧
    (sInt (s.reg b) < 0 → SetsReg (.neg a b) s a (match Config.negNegative with
      | .copy => s.reg b
      | .negate => wordOf (-sInt (s.reg b)))) ∧
    SetsReg (.abs a b) s a (wordOf |sInt (s.reg b)|) ∧
    (∃ v, SetsReg (.nabs a b) s a v ∧ sInt v = -|sInt (s.reg b)|) ∧
    SetsPair (.swap a b) s a b (s.reg b) (s.reg a) ∧
    SetsReg (.copy a b) s a (s.reg b) ∧
    (a ≠ b → SetsPair (.move a b) s a b (s.reg b) 0) ∧
    (a = b → exec (.move a b) s.toState = .refused .coincidingDestinations) ∧
    SetsReg (.not a b) s a (wordOf (2 ^ n.bits - 1 - uInt (s.reg b)))

/-- PUSHR, PUSH8, PUSH16, PUSH32, PUSHPC store at the pointer and move it up by the size (R291, R292, R293, R294, R337). -/
def Obligations.Pushes : Prop :=
  ∀ (n : Xlen) (s : Mach n) (a b : Reg),
    PushesValue (.pushr a b) s b n.bytes (s.reg a) s.pc ∧ PushesValue (.push8 a b) s b 1 (s.reg a) s.pc ∧
    PushesValue (.push16 a b) s b 2 (s.reg a) s.pc ∧ PushesValue (.push32 a b) s b 4 (s.reg a) s.pc ∧
    PushesValue (.pushpc b) s b n.bytes s.pc s.pc

/-- POPR to POPU32 with distinct registers read below the pointer, clear the bytes and move the pointer down
(44_2op_integer.md R295 to R301, 44_2op_integer.md R281, 20_memory.md R66, 20_memory.md R67). DESIGN CHOICE of the
model, log 20: with MEMSIZE = 2^n a pop at pointer 0 completes on the top bytes of memory, as the Faults lines of
R295 to R301 and R67 have it, where the notes of R295 to R301 say that it faults. -/
def Obligations.Pops : Prop :=
  ∀ (n : Xlen) (s : Mach n) (a b : Reg),
    PopsReg (.popr a b) s a b .register .zero ∧ PopsReg (.pop8 a b) s a b .bits8 .signed ∧
    PopsReg (.popu8 a b) s a b .bits8 .zero ∧ PopsReg (.pop16 a b) s a b .bits16 .signed ∧
    PopsReg (.popu16 a b) s a b .bits16 .zero ∧ PopsReg (.pop32 a b) s a b .bits32 .signed ∧
    PopsReg (.popu32 a b) s a b .bits32 .zero

/-- CALL and CALLI push the address of the next word and go to their target; BRANCH stores it without a push (R289,
R290, R395). -/
def Obligations.Calls : Prop :=
  ∀ (n : Xlen) (s : Mach n) (a b : Reg) (imm : Imm16),
    PushesValue (.call a b) s b n.bytes s.pc (s.reg a) ∧
    PushesValue (.calli a imm) s a n.bytes s.pc (wordOf (uInt s.pc + sImm imm)) ∧
    ((s.reg b).toNat + n.bytes ≤ s.mem.size →
      ∃ t : Mach n, exec (.branch a b) s.toState = .next t.toState ∧
        HoldsBytes t.mem (s.reg b).toNat n.bytes s.pc.toNat ∧ t.pc = s.reg a ∧
        OnlyRegsAndBytes s t [] (s.reg b) n.bytes) ∧
    (s.mem.size < (s.reg b).toNat + n.bytes →
      RaisesFault (.branch a b) s (.memoryOutOfRange (s.reg b).toNat n.bytes))

/-- RET and POPPC pop pc without clearing; JSR_COROUTINE goes to a register (R335, R336, R338). -/
def Obligations.Returns : Prop :=
  ∀ (n : Xlen) (s : Mach n) (a : Reg),
    ((s.topAddress a .register).toNat + n.bytes ≤ s.mem.size →
      ∀ i ∈ [Instr.ret a, .poppc a], ∃ t : Mach n, exec i s.toState = .next t.toState ∧
        t.pc = wordOf (bytesValue s.mem (s.topAddress a .register).toNat n.bytes) ∧
        t.reg a = wordOf (uInt (s.reg a) - n.bytes) ∧ OnlyRegs s t [a]) ∧
    (s.mem.size < (s.topAddress a .register).toNat + n.bytes →
      ∀ i ∈ [Instr.ret a, .poppc a],
        RaisesFault i s (.memoryOutOfRange (s.topAddress a .register).toNat n.bytes)) ∧
    GoesIf (.jsrCoroutine a) s True (s.reg a)

/-- A POPR after a PUSHR on the same pointer gives the datum back and restores the pointer (44_2op_integer.md R281,
90_conflicts.md C6). The slot may be the last of a memory of 2^n bytes, after which the pointer is 0: that the pop
then completes is the DESIGN CHOICE of log 20. -/
def Obligations.PopUndoesPush : Prop :=
  ∀ (n : Xlen) (s : Mach n) (a p d : Reg), d ≠ p → (s.reg p).toNat + n.bytes ≤ s.mem.size →
    ∃ t u : Mach n, exec (.pushr a p) s.toState = .next t.toState ∧ exec (.popr d p) t.toState = .next u.toState ∧
      u.reg d = s.reg a ∧ u.reg p = s.reg p ∧ HoldsBytes u.mem (s.reg p).toNat n.bytes 0 ∧
      OnlyRegsAndBytes s u [d] (s.reg p) n.bytes ∧ u.pc = s.pc

/-- A RET right after a CALL or CALLI on the same pointer comes back to the word after the call (44_2op_integer.md R290,
45_1op.md R336, 10_state.md R33, 90_conflicts.md C6). -/
def Obligations.ReturnUndoesCall : Prop :=
  ∀ (n : Xlen) (s : Mach n) (a b : Reg) (imm : Imm16), (s.reg b).toNat + n.bytes ≤ s.mem.size →
    ∀ i ∈ [Instr.call a b, .calli b imm], ∃ t u : Mach n, exec i s.toState = .next t.toState ∧
      exec (.ret b) t.toState = .next u.toState ∧ u.pc = s.pc ∧ OnlyRegsAndBytes s u [] (s.reg b) n.bytes

/-- READPC, READSCID, FALSE, TRUE, LOADI, LOADUI write their value to x[a] (R331, R332, R333, R334, R396, R397). -/
def Obligations.ConstantsAndPc : Prop :=
  ∀ (n : Xlen) (s : Mach n) (a : Reg) (imm : Imm16),
    SetsReg (.readpc a) s a s.pc ∧ SetsReg (.readscid a) s a Config.scid ∧ SetsReg (.setFalse a) s a 0 ∧
    SetsReg (.setTrue a) s a (wordOf (2 ^ n.bits - 1)) ∧ SetsReg (.loadi a imm) s a (wordOf (sImm imm)) ∧
    SetsReg (.loadui a imm) s a (wordOf (uImm imm))

/-- JUMP.C, .B, .O, .G, .GE, .E, .NE, .LE, .L go pc-relative exactly when their bits of x[a] say so (R382, R383, R384,
R385, R386, R387, R388, R389, R390). -/
def Obligations.JumpOnConditionBits : Prop :=
  ∀ (n : Xlen) (s : Mach n) (a : Reg) (imm : Imm16),
    GoesIf (.jumpC a imm) s (bitOf (s.reg a) 5 = true) (wordOf (uInt s.pc + sImm imm)) ∧
    GoesIf (.jumpB a imm) s (bitOf (s.reg a) 4 = true) (wordOf (uInt s.pc + sImm imm)) ∧
    GoesIf (.jumpO a imm) s (bitOf (s.reg a) 3 = true) (wordOf (uInt s.pc + sImm imm)) ∧
    GoesIf (.jumpG a imm) s (bitOf (s.reg a) 2 = true) (wordOf (uInt s.pc + sImm imm)) ∧
    GoesIf (.jumpGe a imm) s (bitOf (s.reg a) 2 = true ∨ bitOf (s.reg a) 1 = true) (wordOf (uInt s.pc + sImm imm)) ∧
    GoesIf (.jumpE a imm) s (bitOf (s.reg a) 1 = true) (wordOf (uInt s.pc + sImm imm)) ∧
    GoesIf (.jumpNe a imm) s (bitOf (s.reg a) 1 = false) (wordOf (uInt s.pc + sImm imm)) ∧
    GoesIf (.jumpLe a imm) s (bitOf (s.reg a) 0 = true ∨ bitOf (s.reg a) 1 = true) (wordOf (uInt s.pc + sImm imm)) ∧
    GoesIf (.jumpL a imm) s (bitOf (s.reg a) 0 = true) (wordOf (uInt s.pc + sImm imm))

/-- JUMP.Z, .NZ, .P, .NP test the whole register; JUMP always goes (R391, R392, R393, R394, R415). -/
def Obligations.JumpOnValueAndAlways : Prop :=
  ∀ (n : Xlen) (s : Mach n) (a : Reg) (imm : Imm16),
    GoesIf (.jumpZ a imm) s (uInt (s.reg a) = 0) (wordOf (uInt s.pc + sImm imm)) ∧
    GoesIf (.jumpNz a imm) s (uInt (s.reg a) ≠ 0) (wordOf (uInt s.pc + sImm imm)) ∧
    GoesIf (.jumpP a imm) s (0 ≤ sInt (s.reg a)) (wordOf (uInt s.pc + sImm imm)) ∧
    GoesIf (.jumpNp a imm) s (sInt (s.reg a) < 0) (wordOf (uInt s.pc + sImm imm)) ∧
    GoesIf (.jump imm) s True (wordOf (uInt s.pc + sImm imm))

/-- FOPEN_READ, FOPEN_WRITE, FCLOSE, REWIND, FSEEK on a tape set its mode and position and nothing else (R439, R440,
R441, R442, R443). -/
def Obligations.TapePositioning : Prop :=
  ∀ (n : Xlen) (s : Mach n),
    (∀ d : TapeId, s.reg 0 = (Device.tape d).id →
      (∃ t : Mach n, exec .fopenRead s.toState = .next t.toState ∧ (t.tape d).cells = (s.tape d).cells ∧
        (t.tape d).mode = .reading ∧
        IsFirstNonZero (s.tape d).cells (t.tape d).pos ∧ OnlyTape s t d) ∧
      (∃ t : Mach n, exec .fopenWrite s.toState = .next t.toState ∧ (t.tape d).cells = (s.tape d).cells ∧
        (t.tape d).mode = .writing ∧
        IsFirstZero (s.tape d).cells (t.tape d).pos ∧ OnlyTape s t d) ∧
      (∃ t : Mach n, exec .fclose s.toState = .next t.toState ∧ (t.tape d).cells = (s.tape d).cells ∧
        (t.tape d).mode = .closed ∧
        (t.tape d).pos = (s.tape d).pos ∧ OnlyTape s t d) ∧
      (∃ t : Mach n, exec .rewind s.toState = .next t.toState ∧ (t.tape d).cells = (s.tape d).cells ∧
        (t.tape d).mode = (s.tape d).mode ∧
        IsFirstNonZero (s.tape d).cells (t.tape d).pos ∧ OnlyTape s t d) ∧
      (0 ≤ ((s.tape d).pos : Int) + sInt (s.reg 1) →
        ∃ t : Mach n, exec .fseek s.toState = .next t.toState ∧ (t.tape d).cells = (s.tape d).cells ∧
        (t.tape d).mode = (s.tape d).mode ∧
          ((t.tape d).pos : Int) = (s.tape d).pos + sInt (s.reg 1) ∧ OnlyTape s t d) ∧
      (((s.tape d).pos : Int) + sInt (s.reg 1) < 0 →
        RaisesFault .fseek s (.seekOutOfRange (s.reg 0).toNat ((s.tape d).pos + sInt (s.reg 1))))) ∧
    (s.reg 0 = Device.tty.id →
      ∀ i ∈ [Instr.fopenRead, .fopenWrite, .fclose, .rewind, .fseek], exec i s.toState = .next s.toState) ∧
    ((s.reg 0).toNat ∉ [0, 0x1100, 0x1101] →
      ∀ i ∈ [Instr.fopenRead, .fopenWrite, .fclose, .rewind, .fseek], RaisesFault i s (.invalidDevice (s.reg 0).toNat))

/-- FGETC reads one byte zero-extended into x[0] and consumes it; with none left it writes FGETC_EOF (R444). -/
def Obligations.FgetcReads : Prop :=
  ∀ (n : Xlen) (s : Mach n),
    (∀ d : TapeId, s.reg 1 = (Device.tape d).id →
      (∀ b : Byte, (s.tape d).mode = .reading → (s.tape d).cells[(s.tape d).pos]? = some b →
        ∃ t : Mach n, exec .fgetc s.toState = .next t.toState ∧ uInt (t.reg 0) = b.toNat ∧
          t.tape d = { s.tape d with pos := (s.tape d).pos + 1 } ∧ (∀ e, e ≠ d → t.tape e = s.tape e) ∧
          t.tty = s.tty ∧ KeepsRegs s t [0] ∧ KeepsMemory s t ∧ t.pc = s.pc ∧ t.status = s.status) ∧
      ((s.tape d).mode = .reading → (s.tape d).cells.length ≤ (s.tape d).pos → SetsReg .fgetc s 0 Config.fgetcEof) ∧
      ((s.tape d).mode ≠ .reading → RaisesFault .fgetc s (.deviceNotOpen (s.reg 1).toNat))) ∧
    (s.reg 1 = Device.tty.id →
      (∀ (b : Byte) (rest : List Byte), s.tty.input = b :: rest →
        ∃ t : Mach n, exec .fgetc s.toState = .next t.toState ∧ uInt (t.reg 0) = b.toNat ∧
          t.tty = { input := rest, output := s.tty.output } ∧ t.tape1 = s.tape1 ∧ t.tape2 = s.tape2 ∧
          KeepsRegs s t [0] ∧ KeepsMemory s t ∧ t.pc = s.pc ∧ t.status = s.status) ∧
      (s.tty.input = [] → SetsReg .fgetc s 0 Config.fgetcEof)) ∧
    ((s.reg 1).toNat ∉ [0, 0x1100, 0x1101] → RaisesFault .fgetc s (.invalidDevice (s.reg 1).toNat))

/-- FPUTC writes the low byte of x[0] at the head of a tape, padding a gap with zeros, or to the end of tty.out
(48_halcode.md R445, 48_halcode.md R432, 48_halcode.md R436, 48_halcode.md R437). The raw cells and their number are
those of the device model of R432: R436 makes claims about a tape after the zeros at both ends are stripped and lets
an implementation pad, which this model does not (log 19). -/
def Obligations.FputcWrites : Prop :=
  ∀ (n : Xlen) (s : Mach n),
    (∀ d : TapeId, s.reg 1 = (Device.tape d).id →
      ((s.tape d).mode = .writing →
        ∃ t : Mach n, exec .fputc s.toState = .next t.toState ∧
          (t.tape d).cells.length = max (s.tape d).cells.length ((s.tape d).pos + 1) ∧
          (∀ j, j < (t.tape d).cells.length → (t.tape d).cells[j]? =
            some (if j = (s.tape d).pos then BitVec.ofNat 8 (s.reg 0).toNat else ((s.tape d).cells[j]?).getD 0)) ∧
          (t.tape d).pos = (s.tape d).pos + 1 ∧ (t.tape d).mode = .writing ∧ OnlyTape s t d) ∧
      ((s.tape d).mode ≠ .writing → RaisesFault .fputc s (.deviceNotOpen (s.reg 1).toNat))) ∧
    (s.reg 1 = Device.tty.id →
      ∃ t : Mach n, exec .fputc s.toState = .next t.toState ∧
        t.tty = { input := s.tty.input, output := s.tty.output ++ [BitVec.ofNat 8 (s.reg 0).toNat] } ∧
        t.tape1 = s.tape1 ∧ t.tape2 = s.tape2 ∧ KeepsRegs s t [] ∧ KeepsMemory s t ∧ t.pc = s.pc ∧
        t.status = s.status) ∧
    ((s.reg 1).toNat ∉ [0, 0x1100, 0x1101] → RaisesFault .fputc s (.invalidDevice (s.reg 1).toNat))

/-- No instruction but the seven HALCODEs reads or writes device state, and a HALCODE touches no memory (48_halcode.md
R432, 48_halcode.md R435). -/
def Obligations.OnlyHalcodesTouchDevices : Prop :=
  (∀ (i : Instr) (s : State) (tape1 tape2 : Tape) (tty : Tty), i.isHalcode = false →
      exec i (s.withDevices tape1 tape2 tty) = mapNext (fun t => t.withDevices tape1 tape2 tty) (exec i s)) ∧
    (∀ (i : Instr) (n : Xlen) (s t : Mach n), i.isHalcode = true → exec i s.toState = .next t.toState →
      t.mem = s.mem ∧ KeepsRegs s t [0])

/-- Only stores, pushes, pops and pc-saving calls change memory; only those, loads, returns, divisions and HALCODEs
fault (20_memory.md R65, 60_exceptions.md R515). -/
def Obligations.OnlyStoresWriteMemory : Prop :=
  ∀ (i : Instr) (s t : State), exec i s = .next t →
    (i.writesMemory = false → t.mach.mem = s.mach.mem) ∧
    (i.canFault = false → ∀ f, t.mach.status = .faulted f → s.mach.status = .faulted f)

/-- A non-zero byte written to a blank tape, either one, from any register is what a later open and read of it gives
(48_halcode.md R440, 48_halcode.md R441, 48_halcode.md R439, 48_halcode.md R444, 48_halcode.md R445, 48_halcode.md
R436, 44_2op_integer.md R286). -/
def Obligations.TapeCopyOfOneByte : Prop :=
  ∀ (n : Xlen) (s : Mach n) (d : TapeId) (p : Reg), (s.tape d).cells = [] →
    s.reg 0 = (Device.tape d).id → s.reg 1 = (Device.tape d).id → (s.reg p).toNat % 256 ≠ 0 →
    ∃ s1 s2 s3 s4 s5 s6 s7 : Mach n, exec .fopenWrite s.toState = .next s1.toState ∧
      exec (.copy 0 p) s1.toState = .next s2.toState ∧ exec .fputc s2.toState = .next s3.toState ∧
      exec (.copy 0 1) s3.toState = .next s4.toState ∧ exec .fclose s4.toState = .next s5.toState ∧
      exec .fopenRead s5.toState = .next s6.toState ∧ exec .fgetc s6.toState = .next s7.toState ∧
      uInt (s7.reg 0) = (s.reg p).toNat % 256 ∧
      stripZeros (s7.tape d).cells = [BitVec.ofNat 8 (s.reg p).toNat]

end
end

