-- ==== Sys2Proof/Laws/Xlen.lean ====
section
/-! SUPPORT. Laws.Xlen: what is true of every register width (00_scope.md R5), so that no later proof unfolds it. -/

namespace Sys2Proof

theorem Xlen.one_le_two_pow_doublings (n : Xlen) : 1 ≤ 2 ^ n.doublings := Nat.one_le_two_pow

/-- n >= 32 (R5). -/
theorem Xlen.bits_ge (n : Xlen) : 32 ≤ n.bits := by
  have := n.one_le_two_pow_doublings
  unfold Xlen.bits
  omega

/-- n is a power of two (R5). -/
theorem Xlen.bits_eq_two_pow (n : Xlen) : n.bits = 2 ^ (n.doublings + 5) := by
  rw [Xlen.bits, pow_add]
  omega

/-- Every power of two from 32 on is a width (R5): none is left out. -/
theorem Xlen.exists_bits {k : Nat} (h : 5 ≤ k) : ∃ n : Xlen, n.bits = 2 ^ k :=
  ⟨⟨k - 5⟩, by rw [Xlen.bits_eq_two_pow, Nat.sub_add_cancel h]⟩

/-- RB = n / 8 exactly (R5). -/
theorem Xlen.bits_eq_bytes (n : Xlen) : n.bits = 8 * n.bytes := by
  unfold Xlen.bytes Xlen.bits
  omega

theorem Xlen.bytes_ge (n : Xlen) : 4 ≤ n.bytes := by
  have := n.bits_ge
  have := n.bits_eq_bytes
  omega

/-- The patterns split in halves. -/
theorem Xlen.two_pow_bits (n : Xlen) : 2 ^ n.bits = 2 * 2 ^ (n.bits - 1) := by
  have := n.bits_ge
  rw [← pow_succ', Nat.sub_add_cancel (by omega)]

/-- `Xlen.two_pow_bits` over the integers. -/
theorem Xlen.two_pow_bits_int (n : Xlen) : (2 : Int) ^ n.bits = 2 * 2 ^ (n.bits - 1) := by
  exact_mod_cast n.two_pow_bits

theorem Xlen.two_pow_ge (n : Xlen) : 2 ^ 32 ≤ 2 ^ n.bits := Nat.pow_le_pow_right (by decide) n.bits_ge

/-- `Xlen.two_pow_ge` over the integers. -/
theorem Xlen.two_pow_ge_int (n : Xlen) : (2 : Int) ^ 32 ≤ 2 ^ n.bits := by
  exact_mod_cast n.two_pow_ge

theorem Xlen.two_pow_half_ge (n : Xlen) : 2 ^ 31 ≤ 2 ^ (n.bits - 1) := by
  have := n.bits_ge
  exact Nat.pow_le_pow_right (by decide) (by omega)

/-- 2^n is 256^RB. -/
theorem Xlen.two_pow_bytes (n : Xlen) : 2 ^ n.bits = 256 ^ n.bytes := by
  rw [n.bits_eq_bytes, pow_mul]
  norm_num

end Sys2Proof
end

