-- ==== Sys2Proof/Laws/State.lean ====
section
/-! SUPPORT. Laws.State: one lemma per field per update of the state, so that no later proof unfolds an update. -/

namespace Sys2Proof.Machine

variable {n : Xlen}

/-! ### One XLEN -/

@[simp] theorem State.eta (s : State) : s.mach.toState = s := (rfl)

@[simp] theorem toState_inj {s t : Mach n} : s.toState = t.toState ↔ s = t :=
  ⟨fun h => eq_of_heq (State.mk.inj h).2, fun h => h ▸ rfl⟩

/-- The answer of a meaning is the answer of its operation. -/
theorem apply_toState (s : Mach n) (f : Mach n → MachResult n) : s.toState.apply f = (f s).lift := (rfl)

/-- A lifted operation answers a next state: the operation does, with the same XLEN (00_scope.md R5). -/
theorem lift_next {r : MachResult n} {t : State} : r.lift = .next t ↔ ∃ u, r = .next u ∧ t = u.toState := by
  cases r <;> simp [MachResult.lift, eq_comm]

@[simp] theorem lift_next_toState {r : MachResult n} {t : Mach n} : r.lift = .next t.toState ↔ r = .next t := by
  rw [lift_next]
  exact ⟨fun ⟨u, hu, ht⟩ => toState_inj.mp ht ▸ hu, fun h => ⟨t, h, rfl⟩⟩

@[simp] theorem lift_fault {r : MachResult n} {f : Fault} : r.lift = .fault f ↔ r = .fault f := by
  cases r <;> simp [MachResult.lift]

@[simp] theorem lift_refused {r : MachResult n} {x : Refusal} : r.lift = .refused x ↔ r = .refused x := by
  cases r <;> simp [MachResult.lift]

/-! ### Registers, memory, devices -/

/-- Reading a register after a write: the written value there, the old value elsewhere (10_state.md R30, R31). -/
theorem Mach.reg_setReg (s : Mach n) (r : Reg) (v : Word n) (q : Reg) :
    (s.setReg r v).reg q = if r = q then v else s.reg q := by
  simp only [Mach.setReg, Mach.reg, Vector.get_eq_getElem, Vector.getElem_set, Fin.ext_iff]

@[simp] theorem Mach.reg_setReg_self (s : Mach n) (r : Reg) (v : Word n) : (s.setReg r v).reg r = v := by
  simp [Mach.reg_setReg]

@[simp] theorem Mach.reg_setReg_ne (s : Mach n) {r q : Reg} (v : Word n) (h : q ≠ r) :
    (s.setReg r v).reg q = s.reg q := by
  simp [Mach.reg_setReg, Ne.symm h]

@[simp] theorem Mach.pc_setReg (s : Mach n) (r : Reg) (v : Word n) : (s.setReg r v).pc = s.pc := (rfl)
@[simp] theorem Mach.mem_setReg (s : Mach n) (r : Reg) (v : Word n) : (s.setReg r v).mem = s.mem := (rfl)
@[simp] theorem Mach.tape1_setReg (s : Mach n) (r : Reg) (v : Word n) : (s.setReg r v).tape1 = s.tape1 := (rfl)
@[simp] theorem Mach.tape2_setReg (s : Mach n) (r : Reg) (v : Word n) : (s.setReg r v).tape2 = s.tape2 := (rfl)
@[simp] theorem Mach.tty_setReg (s : Mach n) (r : Reg) (v : Word n) : (s.setReg r v).tty = s.tty := (rfl)
@[simp] theorem Mach.status_setReg (s : Mach n) (r : Reg) (v : Word n) : (s.setReg r v).status = s.status := (rfl)

@[simp] theorem Mach.reg_setPc (s : Mach n) (v : Word n) (q : Reg) : (s.setPc v).reg q = s.reg q := (rfl)
@[simp] theorem Mach.pc_setPc (s : Mach n) (v : Word n) : (s.setPc v).pc = v := (rfl)
@[simp] theorem Mach.mem_setPc (s : Mach n) (v : Word n) : (s.setPc v).mem = s.mem := (rfl)
@[simp] theorem Mach.tape1_setPc (s : Mach n) (v : Word n) : (s.setPc v).tape1 = s.tape1 := (rfl)
@[simp] theorem Mach.tape2_setPc (s : Mach n) (v : Word n) : (s.setPc v).tape2 = s.tape2 := (rfl)
@[simp] theorem Mach.tty_setPc (s : Mach n) (v : Word n) : (s.setPc v).tty = s.tty := (rfl)
@[simp] theorem Mach.status_setPc (s : Mach n) (v : Word n) : (s.setPc v).status = s.status := (rfl)

@[simp] theorem Mach.reg_setStatus (s : Mach n) (v : RunStatus) (q : Reg) : (s.setStatus v).reg q = s.reg q := (rfl)
@[simp] theorem Mach.pc_setStatus (s : Mach n) (v : RunStatus) : (s.setStatus v).pc = s.pc := (rfl)
@[simp] theorem Mach.mem_setStatus (s : Mach n) (v : RunStatus) : (s.setStatus v).mem = s.mem := (rfl)
@[simp] theorem Mach.tape1_setStatus (s : Mach n) (v : RunStatus) : (s.setStatus v).tape1 = s.tape1 := (rfl)
@[simp] theorem Mach.tape2_setStatus (s : Mach n) (v : RunStatus) : (s.setStatus v).tape2 = s.tape2 := (rfl)
@[simp] theorem Mach.tty_setStatus (s : Mach n) (v : RunStatus) : (s.setStatus v).tty = s.tty := (rfl)
@[simp] theorem Mach.status_setStatus (s : Mach n) (v : RunStatus) : (s.setStatus v).status = v := (rfl)

@[simp] theorem Mach.reg_advance (s : Mach n) (q : Reg) : s.advance.reg q = s.reg q := (rfl)
@[simp] theorem Mach.pc_advance (s : Mach n) : s.advance.pc = s.pc + 4 := (rfl)
@[simp] theorem Mach.mem_advance (s : Mach n) : s.advance.mem = s.mem := (rfl)
@[simp] theorem Mach.tape1_advance (s : Mach n) : s.advance.tape1 = s.tape1 := (rfl)
@[simp] theorem Mach.tape2_advance (s : Mach n) : s.advance.tape2 = s.tape2 := (rfl)
@[simp] theorem Mach.tty_advance (s : Mach n) : s.advance.tty = s.tty := (rfl)
@[simp] theorem Mach.status_advance (s : Mach n) : s.advance.status = s.status := (rfl)

@[simp] theorem Mach.reg_store (s : Mach n) (p : Word n) (w : Width) (v : Word n) (q : Reg) : (s.store p w v).reg q = s.reg q := (rfl)
@[simp] theorem Mach.pc_store (s : Mach n) (p : Word n) (w : Width) (v : Word n) : (s.store p w v).pc = s.pc := (rfl)
@[simp] theorem Mach.mem_store (s : Mach n) (p : Word n) (w : Width) (v : Word n) : (s.store p w v).mem = s.mem.writeBE p.toNat (w.bytes n) v.toNat := (rfl)
@[simp] theorem Mach.tape1_store (s : Mach n) (p : Word n) (w : Width) (v : Word n) : (s.store p w v).tape1 = s.tape1 := (rfl)
@[simp] theorem Mach.tape2_store (s : Mach n) (p : Word n) (w : Width) (v : Word n) : (s.store p w v).tape2 = s.tape2 := (rfl)
@[simp] theorem Mach.tty_store (s : Mach n) (p : Word n) (w : Width) (v : Word n) : (s.store p w v).tty = s.tty := (rfl)
@[simp] theorem Mach.status_store (s : Mach n) (p : Word n) (w : Width) (v : Word n) : (s.store p w v).status = s.status := (rfl)

@[simp] theorem Mach.reg_setTty (s : Mach n) (v : Tty) (q : Reg) : (s.setTty v).reg q = s.reg q := (rfl)
@[simp] theorem Mach.pc_setTty (s : Mach n) (v : Tty) : (s.setTty v).pc = s.pc := (rfl)
@[simp] theorem Mach.mem_setTty (s : Mach n) (v : Tty) : (s.setTty v).mem = s.mem := (rfl)
@[simp] theorem Mach.tape1_setTty (s : Mach n) (v : Tty) : (s.setTty v).tape1 = s.tape1 := (rfl)
@[simp] theorem Mach.tape2_setTty (s : Mach n) (v : Tty) : (s.setTty v).tape2 = s.tape2 := (rfl)
@[simp] theorem Mach.tty_setTty (s : Mach n) (v : Tty) : (s.setTty v).tty = v := (rfl)
@[simp] theorem Mach.status_setTty (s : Mach n) (v : Tty) : (s.setTty v).status = s.status := (rfl)

@[simp] theorem Mach.reg_takeFault (s : Mach n) (p : Word n) (f : Fault) (q : Reg) : (s.takeFault p f).reg q = s.reg q := (rfl)
@[simp] theorem Mach.pc_takeFault (s : Mach n) (p : Word n) (f : Fault) : (s.takeFault p f).pc = p := (rfl)
@[simp] theorem Mach.mem_takeFault (s : Mach n) (p : Word n) (f : Fault) : (s.takeFault p f).mem = s.mem := (rfl)
@[simp] theorem Mach.tape1_takeFault (s : Mach n) (p : Word n) (f : Fault) : (s.takeFault p f).tape1 = s.tape1 := (rfl)
@[simp] theorem Mach.tape2_takeFault (s : Mach n) (p : Word n) (f : Fault) : (s.takeFault p f).tape2 = s.tape2 := (rfl)
@[simp] theorem Mach.tty_takeFault (s : Mach n) (p : Word n) (f : Fault) : (s.takeFault p f).tty = s.tty := (rfl)
@[simp] theorem Mach.status_takeFault (s : Mach n) (p : Word n) (f : Fault) : (s.takeFault p f).status = .faulted f := (rfl)

@[simp] theorem Mach.reg_setTape (s : Mach n) (t : TapeId) (v : Tape) (q : Reg) : (s.setTape t v).reg q = s.reg q := by
  cases t <;> rfl

@[simp] theorem Mach.pc_setTape (s : Mach n) (t : TapeId) (v : Tape) : (s.setTape t v).pc = s.pc := by
  cases t <;> rfl

@[simp] theorem Mach.mem_setTape (s : Mach n) (t : TapeId) (v : Tape) : (s.setTape t v).mem = s.mem := by
  cases t <;> rfl

@[simp] theorem Mach.tty_setTape (s : Mach n) (t : TapeId) (v : Tape) : (s.setTape t v).tty = s.tty := by
  cases t <;> rfl

@[simp] theorem Mach.status_setTape (s : Mach n) (t : TapeId) (v : Tape) : (s.setTape t v).status = s.status := by
  cases t <;> rfl

@[simp] theorem Mach.tape_setTape_self (s : Mach n) (t : TapeId) (v : Tape) : (s.setTape t v).tape t = v := by
  cases t <;> rfl

@[simp] theorem Mach.tape_setTape_ne (s : Mach n) {t u : TapeId} (v : Tape) (h : u ≠ t) :
    (s.setTape t v).tape u = s.tape u := by
  cases t <;> cases u <;> first | rfl | exact absurd rfl h

@[simp] theorem Mach.tape_setReg (s : Mach n) (r : Reg) (v : Word n) (t : TapeId) :
    (s.setReg r v).tape t = s.tape t := by
  cases t <;> rfl

@[simp] theorem Mach.mem_placeWord (s : Mach n) (w : InstrWord) :
    (s.placeWord w).mem = s.mem.writeBE s.pc.toNat 4 w.toNat := (rfl)
@[simp] theorem Mach.pc_placeWord (s : Mach n) (w : InstrWord) : (s.placeWord w).pc = s.pc := (rfl)
@[simp] theorem Mach.status_placeWord (s : Mach n) (w : InstrWord) : (s.placeWord w).status = .running := (rfl)

end Sys2Proof.Machine
end

