-- ==== Sys2Proof/Laws/Memory.lean ====
section
/-!
SUPPORT. Laws.Memory: a byte reads as it was last written, a write leaves every other byte alone, accesses of k bytes
are big-endian, and every memory operation keeps the canonical form.
-/

namespace Sys2Proof.Machine

/-! ### Lists of cells -/

theorem cellsGet_cellsErase_self (cells : List Host.Cell) (a : Nat) : cellsGet (cellsErase cells a) a = unlistedByte := by
  induction cells with
  | nil => rfl
  | cons cell rest ih =>
    by_cases h : cell.1 = a
    · simpa [cellsErase, h] using ih
    · simpa [cellsErase, cellsGet, h] using ih

theorem cellsGet_cellsErase_ne (cells : List Host.Cell) {a b : Nat} (hab : b ≠ a) :
    cellsGet (cellsErase cells a) b = cellsGet cells b := by
  induction cells with
  | nil => rfl
  | cons cell rest ih =>
    by_cases h : cell.1 = a
    · have hb : cell.1 ≠ b := fun e => hab (e ▸ h)
      simp [cellsErase, cellsGet, h, ih]
      exact fun e => absurd e.symm hab
    · simp only [cellsErase, h, if_false, cellsGet, ih]

theorem cellsGet_cellsInsert_self (cells : List Host.Cell) (a : Nat) (v : Byte)
    (fresh : ∀ cell ∈ cells, cell.1 ≠ a) : cellsGet (cellsInsert cells a v) a = v := by
  induction cells with
  | nil => simp [cellsInsert, cellsGet]
  | cons cell rest ih =>
    have hne : cell.1 ≠ a := fresh cell (by simp)
    by_cases h : a < cell.1
    · simp [cellsInsert, cellsGet, h]
    · simpa [cellsInsert, cellsGet, h, hne] using ih fun c hc => fresh c (by simp [hc])

theorem cellsGet_cellsInsert_ne (cells : List Host.Cell) {a b : Nat} (v : Byte) (hab : b ≠ a) :
    cellsGet (cellsInsert cells a v) b = cellsGet cells b := by
  induction cells with
  | nil => simp [cellsInsert, cellsGet, Ne.symm hab]
  | cons cell rest ih =>
    by_cases h : a < cell.1
    · simp [cellsInsert, cellsGet, h, Ne.symm hab]
    · simp only [cellsInsert, h, if_false, cellsGet, ih]

theorem cellsErase_fresh (cells : List Host.Cell) (a : Nat) : ∀ cell ∈ cellsErase cells a, cell.1 ≠ a := by
  induction cells with
  | nil => simp [cellsErase]
  | cons cell rest ih =>
    by_cases h : cell.1 = a
    · simpa [cellsErase, h] using ih
    · intro c hc
      simp only [cellsErase, h, if_false, List.mem_cons] at hc
      rcases hc with rfl | hc
      · exact h
      · exact ih c hc

theorem cellsGet_cellsPut (cells : List Host.Cell) (a b : Nat) (v : Byte) :
    cellsGet (cellsPut cells a v) b = if b = a then v else cellsGet cells b := by
  unfold cellsPut
  by_cases hab : b = a
  · subst hab
    by_cases hv : v = unlistedByte
    · simp [hv, cellsGet_cellsErase_self]
    · simp [hv, cellsGet_cellsInsert_self _ _ _ (cellsErase_fresh cells b)]
  · by_cases hv : v = unlistedByte
    · simp [hv, hab, cellsGet_cellsErase_ne]
    · simp [hv, hab, cellsGet_cellsInsert_ne, cellsGet_cellsErase_ne]

theorem cellsRising_mono {cells : List Host.Cell} {m n : Nat} (hmn : m ≤ n) (h : cellsRising cells n = true) :
    cellsRising cells m = true := by
  cases cells with
  | nil => rfl
  | cons cell rest =>
    simp only [cellsRising, Bool.and_eq_true, decide_eq_true_eq] at h ⊢
    exact ⟨hmn.trans h.1, h.2⟩

theorem cellsErase_rising (cells : List Host.Cell) (a n : Nat) (h : cellsRising cells n = true) :
    cellsRising (cellsErase cells a) n = true := by
  induction cells generalizing n with
  | nil => rfl
  | cons cell rest ih =>
    simp only [cellsRising, Bool.and_eq_true, decide_eq_true_eq] at h
    by_cases hc : cell.1 = a
    · simp only [cellsErase, hc, if_true]
      exact cellsRising_mono (by omega) (ih _ h.2)
    · simp only [cellsErase, hc, if_false, cellsRising, Bool.and_eq_true, decide_eq_true_eq]
      exact ⟨h.1, ih _ h.2⟩

theorem cellsInsert_rising (cells : List Host.Cell) (a n : Nat) (v : Byte) (hn : n ≤ a)
    (fresh : ∀ cell ∈ cells, cell.1 ≠ a) (h : cellsRising cells n = true) :
    cellsRising (cellsInsert cells a v) n = true := by
  induction cells generalizing n with
  | nil => simp [cellsInsert, cellsRising, hn]
  | cons cell rest ih =>
    simp only [cellsRising, Bool.and_eq_true, decide_eq_true_eq] at h
    have hne : cell.1 ≠ a := fresh cell (by simp)
    by_cases hc : a < cell.1
    · simp [cellsInsert, cellsRising, hc, hn, h.2]
    · simp only [cellsInsert, hc, if_false, cellsRising, Bool.and_eq_true, decide_eq_true_eq]
      exact ⟨h.1, ih _ (by omega) (fun c hm => fresh c (by simp [hm])) h.2⟩

theorem cellsPut_rising (cells : List Host.Cell) (a : Nat) (v : Byte) (h : cellsRising cells 0 = true) :
    cellsRising (cellsPut cells a v) 0 = true := by
  unfold cellsPut
  split
  · exact cellsErase_rising _ _ _ h
  · exact cellsInsert_rising _ _ _ _ (Nat.zero_le a) (cellsErase_fresh _ _) (cellsErase_rising _ _ _ h)

theorem mem_of_mem_cellsErase {cells : List Host.Cell} {a : Nat} {c : Host.Cell} (h : c ∈ cellsErase cells a) :
    c ∈ cells := by
  induction cells with
  | nil => exact h
  | cons cell rest ih =>
    by_cases hc : cell.1 = a
    · simp only [cellsErase, hc, if_true] at h
      exact List.mem_cons_of_mem _ (ih h)
    · simp only [cellsErase, hc, if_false, List.mem_cons] at h
      rcases h with rfl | h
      · simp
      · exact List.mem_cons_of_mem _ (ih h)

theorem mem_of_mem_cellsInsert {cells : List Host.Cell} {a : Nat} {v : Byte} {c : Host.Cell}
    (h : c ∈ cellsInsert cells a v) : c = (a, v) ∨ c ∈ cells := by
  induction cells with
  | nil => simpa [cellsInsert] using h
  | cons cell rest ih =>
    by_cases hc : a < cell.1
    · simpa [cellsInsert, hc] using h
    · simp only [cellsInsert, hc, if_false, List.mem_cons] at h
      rcases h with rfl | h
      · simp
      · rcases ih h with h | h
        · exact .inl h
        · exact .inr (List.mem_cons_of_mem _ h)

theorem cellsPut_proper (cells : List Host.Cell) (a size : Nat) (v : Byte) (ha : a < size)
    (h : cellsProper cells size = true) : cellsProper (cellsPut cells a v) size = true := by
  simp only [cellsProper, List.all_eq_true, Bool.and_eq_true, decide_eq_true_eq, bne_iff_ne] at h ⊢
  intro c hc
  unfold cellsPut at hc
  split at hc
  · exact h c (mem_of_mem_cellsErase hc)
  · rcases mem_of_mem_cellsInsert hc with rfl | hc
    · exact ⟨ha, ‹_›⟩
    · exact h c (mem_of_mem_cellsErase hc)

/-! ### One byte -/

/-- Read after write, and every other byte unchanged (20_memory.md R63, R71). -/
theorem Memory.get_put (m : Memory) (a b : Nat) (v : Byte) : (m.put a v).get b = if b = a then v else m.get b :=
  cellsGet_cellsPut m.cells a b v

@[simp] theorem Memory.size_put (m : Memory) (a : Nat) (v : Byte) : (m.put a v).size = m.size := rfl

theorem Memory.wf_iff (m : Memory) : m.wf = true ↔
    8 ≤ m.size ∧ cellsRising m.cells 0 = true ∧ cellsProper m.cells m.size = true := by
  simp only [Memory.wf, Bool.and_eq_true, decide_eq_true_eq, and_assoc]

/-- A byte write inside memory keeps the canonical form. -/
theorem Memory.wf_put (m : Memory) (a : Nat) (v : Byte) (ha : a < m.size) (h : m.wf = true) : (m.put a v).wf = true := by
  rw [Memory.wf_iff] at h ⊢
  exact ⟨h.1, cellsPut_rising _ _ _ h.2.1, cellsPut_proper _ _ _ _ ha h.2.2⟩

/-! ### Accesses of k bytes -/

@[simp] theorem Memory.size_writeBE (m : Memory) (a k v : Nat) : (m.writeBE a k v).size = m.size := by
  induction k generalizing m a with
  | zero => rfl
  | succ k ih => simp [Memory.writeBE, ih]

/-- A write of k bytes leaves every byte outside them alone (R61). -/
theorem Memory.get_writeBE_outside (m : Memory) (a k v b : Nat) (h : b < a ∨ a + k ≤ b) :
    (m.writeBE a k v).get b = m.get b := by
  induction k generalizing m a with
  | zero => rfl
  | succ k ih => rw [Memory.writeBE, ih _ _ (by omega), Memory.get_put, if_neg (by omega)]

/-- Byte i of a written datum: the most significant byte lies at the lowest address (R61). -/
theorem Memory.get_writeBE_inside (m : Memory) (a k v i : Nat) (h : i < k) :
    (m.writeBE a k v).get (a + i) = BitVec.ofNat 8 (v / 256 ^ (k - 1 - i)) := by
  induction k generalizing m a i with
  | zero => omega
  | succ k ih =>
    rw [Memory.writeBE]
    cases i with
    | zero => rw [Memory.get_writeBE_outside _ _ _ _ _ (by omega), Memory.get_put]; simp
    | succ i =>
      have := ih (m.put a (BitVec.ofNat 8 (v / 256 ^ k))) (a + 1) i (by omega)
      rw [show a + (i + 1) = a + 1 + i by omega, this, show k + 1 - 1 - (i + 1) = k - 1 - i by omega]

/-- A number in k bytes is below 256^k. -/
theorem Memory.readBE_lt (m : Memory) (a k : Nat) : m.readBE a k < 256 ^ k := by
  induction k generalizing a with
  | zero => simp [Memory.readBE]
  | succ k ih =>
    have h1 := ih (a + 1)
    have h2 : (m.get a).toNat < 256 := (m.get a).isLt
    have h3 : (m.get a).toNat * 256 ^ k + 256 ^ k ≤ 256 * 256 ^ k := by 
      have := Nat.mul_le_mul_right (256 ^ k) (show (m.get a).toNat + 1 ≤ 256 by omega)
      linarith [Nat.succ_mul (m.get a).toNat (256 ^ k)]
    rw [Memory.readBE, Nat.pow_succ]
    omega

/-- What is read depends on the bytes of the access alone. -/
theorem Memory.readBE_congr {m m' : Memory} {a k : Nat} (h : ∀ b, a ≤ b → b < a + k → m.get b = m'.get b) :
    m.readBE a k = m'.readBE a k := by
  induction k generalizing a with
  | zero => rfl
  | succ k ih =>
    rw [Memory.readBE, Memory.readBE, h a (by omega) (by omega), ih fun b hb hk => h b (by omega) (by omega)]

/-- Reading back a written datum gives its low k bytes (R61, R71). -/
theorem Memory.readBE_writeBE (m : Memory) (a k v : Nat) : (m.writeBE a k v).readBE a k = v % 256 ^ k := by
  induction k generalizing m a with
  | zero => simp [Memory.readBE, Nat.mod_one]
  | succ k ih =>
    have hb : ((m.put a (BitVec.ofNat 8 (v / 256 ^ k))).writeBE (a + 1) k v).get a = BitVec.ofNat 8 (v / 256 ^ k) := by
      rw [Memory.get_writeBE_outside _ _ _ _ _ (by omega), Memory.get_put, if_pos rfl]
    rw [Memory.writeBE, Memory.readBE, ih, hb, BitVec.toNat_ofNat, pow_succ 256 k,
      Nat.mod_mul (x := v) (a := 256 ^ k) (b := 256)]
    ring

/-- A write of k bytes inside memory keeps the canonical form. -/
theorem Memory.wf_writeBE (m : Memory) (a k v : Nat) (ha : a + k ≤ m.size) (h : m.wf = true) :
    (m.writeBE a k v).wf = true := by
  induction k generalizing m a with
  | zero => exact h
  | succ k ih =>
    exact ih (m.put a _) (a + 1) (by simp only [Memory.size_put]; omega) (m.wf_put a _ (by omega) h)

end Sys2Proof.Machine
end

