-- ==== Sys2Proof/Laws/Ops.lean ====
section
/-!
SUPPORT. Laws.Ops: for each shared operation, everything it can do, said once. A later proof cites these and unfolds no
operation.
-/

namespace Sys2Proof.Machine

variable {n : Xlen}

theorem raiseFault_next {s t : Mach n} {f : Fault} : raiseFault s f = .next t ↔ t = s.takeFault (s.pc - 4) f := by
  simp only [raiseFault, Host.Outcome.next.injEq, eq_comm]

theorem writeReg_next {s t : Mach n} {a : Reg} {v : Word n} : writeReg s a v = .next t ↔ t = s.setReg a v := by
  simp only [writeReg, Host.Outcome.next.injEq, eq_comm]

theorem writePair_next {s t : Mach n} {a b : Reg} {va vb : Word n} :
    writePair s a b va vb = .next t ↔ a ≠ b ∧ t = (s.setReg a va).setReg b vb := by
  unfold writePair
  split <;> simp_all [eq_comm]

theorem jumpIf_next {s t : Mach n} {c : Bool} {p : Word n} :
    jumpIf s c p = .next t ↔ t = s.setPc (if c then p else s.pc) := by
  simp only [jumpIf, Host.Outcome.next.injEq, eq_comm]

theorem skipIf_next {s t : Mach n} {c : Bool} :
    skipIf s c = .next t ↔ t = if c then s.advance else s := by
  simp only [skipIf, Host.Outcome.next.injEq, eq_comm]

theorem inRange_iff {s : Mach n} {p : Word n} {k : Nat} : s.inRange p k = true ↔ p.toNat + k ≤ s.mem.size := by
  simp only [Mach.inRange, decide_eq_true_eq]

theorem loadReg_next {s t : Mach n} {a : Reg} {p : Word n} {w : Width} {e : Extension} :
    loadReg s a p w e = .next t ↔
      (p.toNat + w.bytes n ≤ s.mem.size ∧ t = s.setReg a (s.load p w e)) ∨
      (s.mem.size < p.toNat + w.bytes n ∧ t = s.takeFault (s.pc - 4) (.memoryOutOfRange p.toNat (w.bytes n))) := by
  unfold loadReg
  by_cases h : p.toNat + w.bytes n ≤ s.mem.size
  · simp [inRange_iff.mpr h, h, eq_comm]
  · rw [if_neg (fun c => h (inRange_iff.mp c)), raiseFault_next]
    simp [h, not_le.mp h]

theorem storeValue_next {s t : Mach n} {p v : Word n} {w : Width} :
    storeValue s p w v = .next t ↔
      (p.toNat + w.bytes n ≤ s.mem.size ∧ t = s.store p w v) ∨
      (s.mem.size < p.toNat + w.bytes n ∧ t = s.takeFault (s.pc - 4) (.memoryOutOfRange p.toNat (w.bytes n))) := by
  unfold storeValue
  by_cases h : p.toNat + w.bytes n ≤ s.mem.size
  · simp [inRange_iff.mpr h, h, eq_comm]
  · rw [if_neg (fun c => h (inRange_iff.mp c)), raiseFault_next]
    simp [h, not_le.mp h]

theorem pushValue_next {s t : Mach n} {p : Reg} {w : Width} {v : Word n} :
    pushValue s p w v = .next t ↔
      ((s.reg p).toNat + w.bytes n ≤ s.mem.size ∧
        t = (s.store (s.reg p) w v).setReg p (s.reg p + BitVec.ofNat n.bits (w.bytes n))) ∨
      (s.mem.size < (s.reg p).toNat + w.bytes n ∧
        t = s.takeFault (s.pc - 4) (.memoryOutOfRange (s.reg p).toNat (w.bytes n))) := by
  unfold pushValue
  by_cases h : (s.reg p).toNat + w.bytes n ≤ s.mem.size
  · simp [inRange_iff.mpr h, h, eq_comm]
  · rw [if_neg (fun c => h (inRange_iff.mp c)), raiseFault_next]
    simp [h, not_le.mp h]

theorem popReg_next {s t : Mach n} {a p : Reg} {w : Width} {e : Extension} :
    popReg s a p w e = .next t ↔ a ≠ p ∧
      (((s.topAddress p w).toNat + w.bytes n ≤ s.mem.size ∧
        t = ((s.store (s.topAddress p w) w 0).setReg a (s.load (s.topAddress p w) w e)).setReg p (s.topAddress p w)) ∨
      (s.mem.size < (s.topAddress p w).toNat + w.bytes n ∧
        t = s.takeFault (s.pc - 4) (.memoryOutOfRange (s.topAddress p w).toNat (w.bytes n)))) := by
  unfold popReg
  by_cases hap : a = p
  · simp [hap]
  by_cases h : (s.topAddress p w).toNat + w.bytes n ≤ s.mem.size
  · simp [hap, inRange_iff.mpr h, h, eq_comm]
  · rw [if_neg hap, if_neg (fun c => h (inRange_iff.mp c)), raiseFault_next]
    simp [hap, h, not_le.mp h]

theorem popPc_next {s t : Mach n} {p : Reg} :
    popPc s p = .next t ↔
      ((s.topAddress p .register).toNat + n.bytes ≤ s.mem.size ∧
        t = (s.setPc (s.load (s.topAddress p .register) .register .zero)).setReg p (s.topAddress p .register)) ∨
      (s.mem.size < (s.topAddress p .register).toNat + n.bytes ∧
        t = s.takeFault (s.pc - 4) (.memoryOutOfRange (s.topAddress p .register).toNat n.bytes)) := by
  unfold popPc
  by_cases h : (s.topAddress p .register).toNat + n.bytes ≤ s.mem.size
  · rw [if_pos (inRange_iff.mpr h)]
    simp [h, eq_comm]
  · rw [if_neg (fun c => h (inRange_iff.mp c)), raiseFault_next]
    simp [h, not_le.mp h]

theorem callTo_next {s t : Mach n} {p : Reg} {target : Word n} :
    callTo s p target = .next t ↔
      ((s.reg p).toNat + n.bytes ≤ s.mem.size ∧
        t = ((s.store (s.reg p) .register s.pc).setReg p
          (s.reg p + BitVec.ofNat n.bits n.bytes)).setPc target) ∨
      (s.mem.size < (s.reg p).toNat + n.bytes ∧
        t = s.takeFault (s.pc - 4) (.memoryOutOfRange (s.reg p).toNat n.bytes)) := by
  unfold callTo
  by_cases h : (s.reg p).toNat + n.bytes ≤ s.mem.size
  · rw [if_pos (inRange_iff.mpr h)]
    simp [h, eq_comm]
  · rw [if_neg (fun c => h (inRange_iff.mp c)), raiseFault_next]
    simp [h, not_le.mp h]

theorem branchTo_next {s t : Mach n} {p : Reg} {target : Word n} :
    branchTo s p target = .next t ↔
      ((s.reg p).toNat + n.bytes ≤ s.mem.size ∧
        t = (s.store (s.reg p) .register s.pc).setPc target) ∨
      (s.mem.size < (s.reg p).toNat + n.bytes ∧
        t = s.takeFault (s.pc - 4) (.memoryOutOfRange (s.reg p).toNat n.bytes)) := by
  unfold branchTo
  by_cases h : (s.reg p).toNat + n.bytes ≤ s.mem.size
  · rw [if_pos (inRange_iff.mpr h)]
    simp [h, eq_comm]
  · rw [if_neg (fun c => h (inRange_iff.mp c)), raiseFault_next]
    simp [h, not_le.mp h]

theorem divideInto_next {s t : Mach n} {a b : Reg} {r : Except Fault (Word n × Word n)} :
    divideInto s a b r = .next t ↔ a ≠ b ∧
      ((∃ qr, r = .ok qr ∧ t = (s.setReg a qr.1).setReg b qr.2) ∨
        ∃ f, r = .error f ∧ t = s.takeFault (s.pc - 4) f) := by
  unfold divideInto
  by_cases h : a = b
  · simp [h]
  · cases r <;> simp [h, raiseFault, eq_comm]

theorem divideHalf_next {s t : Mach n} {a : Reg} {r : Except Fault (Word n × Word n)} {half : Word n × Word n → Word n} :
    divideHalf s a r half = .next t ↔
      (∃ qr, r = .ok qr ∧ t = s.setReg a (half qr)) ∨ ∃ f, r = .error f ∧ t = s.takeFault (s.pc - 4) f := by
  unfold divideHalf
  cases r <;> simp [writeReg, raiseFault, eq_comm]

theorem onTape_next {s t : Mach n} {v : Word n} {f : Tape → Tape} :
    onTape s v f = .next t ↔
      (deviceOf v = none ∧ t = s.takeFault (s.pc - 4) (.invalidDevice v.toNat)) ∨ (deviceOf v = some .tty ∧ t = s) ∨
      ∃ d, deviceOf v = some (.tape d) ∧ t = s.setTape d (f (s.tape d)) := by
  unfold onTape
  split <;> rename_i h <;> simp [h, raiseFault, @eq_comm (Mach n) _ t]

theorem seekTape_next {s t : Mach n} {v : Word n} {k : Int} :
    seekTape s v k = .next t ↔
      (deviceOf v = none ∧ t = s.takeFault (s.pc - 4) (.invalidDevice v.toNat)) ∨ (deviceOf v = some .tty ∧ t = s) ∨
      ∃ d, deviceOf v = some (.tape d) ∧
        (((s.tape d).pos + k < 0 ∧ t = s.takeFault (s.pc - 4) (.seekOutOfRange v.toNat ((s.tape d).pos + k))) ∨
          (0 ≤ (s.tape d).pos + k ∧ t = s.setTape d { s.tape d with pos := ((s.tape d).pos + k).toNat })) := by
  unfold seekTape
  split <;> rename_i h
  · simp [h, raiseFault, @eq_comm (Mach n) _ t]
  · simp [h, @eq_comm (Mach n) _ t]
  · rename_i d
    by_cases hn : (s.tape d).pos + k < 0
    · simp [h, hn, not_le.mpr hn, raiseFault, @eq_comm (Mach n) _ t]
    · simp [h, hn, not_lt.mp hn, @eq_comm (Mach n) _ t]

theorem getByte_next {s t : Mach n} {v : Word n} {a : Reg} :
    getByte s v a = .next t ↔
      (deviceOf v = none ∧ t = s.takeFault (s.pc - 4) (.invalidDevice v.toNat)) ∨
      (deviceOf v = some .tty ∧ s.tty.input = [] ∧ t = s.setReg a Config.fgetcEof) ∨
      (∃ b rest, deviceOf v = some .tty ∧ s.tty.input = b :: rest ∧
        t = (s.setTty { s.tty with input := rest }).setReg a (b.zeroExtend n.bits)) ∨
      ∃ d, deviceOf v = some (.tape d) ∧
        (((s.tape d).mode ≠ .reading ∧ t = s.takeFault (s.pc - 4) (.deviceNotOpen v.toNat)) ∨
          ((s.tape d).mode = .reading ∧ (s.tape d).cells[(s.tape d).pos]? = none ∧ t = s.setReg a Config.fgetcEof) ∨
          ∃ b, (s.tape d).mode = .reading ∧ (s.tape d).cells[(s.tape d).pos]? = some b ∧
            t = (s.setTape d { s.tape d with pos := (s.tape d).pos + 1 }).setReg a (b.zeroExtend n.bits)) := by
  unfold getByte
  split <;> rename_i h
  · simp [h, raiseFault, @eq_comm (Mach n) _ t]
  · cases hi : s.tty.input <;> simp [h, @eq_comm (Mach n) _ t]
  · rename_i d
    by_cases hm : (s.tape d).mode = .reading
    · simp only [h, hm, Option.some.injEq, Device.tape.injEq, exists_eq_left', if_true]
      generalize (s.tape d).cells[(s.tape d).pos]? = c
      cases c <;> simp [@eq_comm (Mach n) _ t]
    · simp [h, hm, raiseFault, @eq_comm (Mach n) _ t]

theorem putByte_next {s t : Mach n} {v : Word n} {b : Byte} :
    putByte s v b = .next t ↔
      (deviceOf v = none ∧ t = s.takeFault (s.pc - 4) (.invalidDevice v.toNat)) ∨
      (deviceOf v = some .tty ∧ t = s.setTty { s.tty with output := s.tty.output ++ [b] }) ∨
      ∃ d, deviceOf v = some (.tape d) ∧
        (((s.tape d).mode ≠ .writing ∧ t = s.takeFault (s.pc - 4) (.deviceNotOpen v.toNat)) ∨
          ((s.tape d).mode = .writing ∧ t = s.setTape d
            { s.tape d with cells := putCell (s.tape d).cells (s.tape d).pos b, pos := (s.tape d).pos + 1 })) := by
  unfold putByte
  split <;> rename_i h
  · simp [h, raiseFault, @eq_comm (Mach n) _ t]
  · simp [h, @eq_comm (Mach n) _ t]
  · rename_i d
    by_cases hm : (s.tape d).mode = .writing <;> simp [h, hm, raiseFault, @eq_comm (Mach n) _ t]

end Sys2Proof.Machine
end

