-- ==== Sys2Proof/Laws/Values.lean ====
section
/-!
SUPPORT. Laws.Values: the spec's integer arithmetic (Sys2Proof/Safety.lean) in terms of bit patterns, and the value each
arithmetic function of Machine/Arith.lean computes in that arithmetic.
-/

namespace Sys2Proof.Machine

variable {n : Xlen}

/-! ### u, s, "mod 2^n" and the bits of a pattern -/

theorem uInt_eq (v : Word n) : uInt v = (v.toNat : Int) := rfl

theorem sInt_eq_toInt (v : Word n) : sInt v = v.toInt := by
  have := n.two_pow_bits
  rw [sInt, BitVec.toInt]
  push_cast
  split <;> split <;> first | rfl | omega

theorem emod_two_pow_nonneg (z : Int) : 0 ≤ z % 2 ^ n.bits := Int.emod_nonneg _ (by positivity)

theorem emod_two_pow_lt (z : Int) : z % 2 ^ n.bits < 2 ^ n.bits := Int.emod_lt_of_pos _ (by positivity)

theorem uInt_wordOf (z : Int) : uInt (wordOf z : Word n) = z % 2 ^ n.bits := by
  have h := emod_two_pow_nonneg (n := n) z
  have h' : (z % 2 ^ n.bits).toNat < 2 ^ n.bits := by
    rw [Int.toNat_lt h]
    exact_mod_cast emod_two_pow_lt z
  rw [uInt, wordOf, BitVec.toNat_ofNat, Nat.mod_eq_of_lt h', Int.toNat_of_nonneg h]

theorem wordOf_eq_ofInt (z : Int) : (wordOf z : Word n) = BitVec.ofInt n.bits z := by
  apply BitVec.eq_of_toNat_eq
  have h : ((wordOf z : Word n).toNat : Int) = z % 2 ^ n.bits := uInt_wordOf z
  rw [BitVec.toNat_ofInt]
  push_cast
  omega

@[simp] theorem wordOf_uInt (v : Word n) : wordOf (uInt v) = v := by
  rw [wordOf_eq_ofInt, uInt, BitVec.ofInt_natCast, BitVec.ofNat_toNat, BitVec.setWidth_eq]

@[simp] theorem wordOf_sInt (v : Word n) : wordOf (sInt v) = v := by
  rw [wordOf_eq_ofInt, sInt_eq_toInt, BitVec.ofInt_toInt]

/-- Two integers congruent modulo 2^n are one pattern. -/
theorem wordOf_congr {x y : Int} (h : x % 2 ^ n.bits = y % 2 ^ n.bits) : (wordOf x : Word n) = wordOf y := by
  simp only [wordOf, h]

theorem wordOf_add (x y : Int) : (wordOf (x + y) : Word n) = wordOf x + wordOf y := by
  simp only [wordOf_eq_ofInt, BitVec.ofInt_add]

theorem wordOf_mul (x y : Int) : (wordOf (x * y) : Word n) = wordOf x * wordOf y := by
  simp only [wordOf_eq_ofInt, BitVec.ofInt_mul]

theorem wordOf_neg (x : Int) : (wordOf (-x) : Word n) = -wordOf x := by
  simp only [wordOf_eq_ofInt, BitVec.ofInt_neg]

theorem wordOf_sub (x y : Int) : (wordOf (x - y) : Word n) = wordOf x - wordOf y := by
  rw [sub_eq_add_neg, wordOf_add, wordOf_neg, BitVec.sub_eq_add_neg]

theorem wordOf_natCast (k : Nat) : (wordOf k : Word n) = BitVec.ofNat n.bits k := by
  rw [wordOf_eq_ofInt, BitVec.ofInt_natCast]

theorem wordOf_four : (wordOf 4 : Word n) = 4 := wordOf_natCast 4

theorem bitOf_eq_getLsbD (v : Word n) (k : Nat) : bitOf v k = v.getLsbD k := by
  rw [bitOf, BitVec.getLsbD, Nat.testBit_eq_decide_div_mod_eq]
  rfl

/-- Patterns with the same bits are one pattern. -/
theorem eq_of_bitOf {v w : Word n} (h : ∀ k, k < n.bits → bitOf v k = bitOf w k) : v = w := by
  apply BitVec.eq_of_getLsbD_eq
  intro k hk
  rw [← bitOf_eq_getLsbD, ← bitOf_eq_getLsbD]
  exact h k hk

/-! ### Immediates and pointers -/

theorem sextImm_eq (imm : Imm16) : (sextImm imm : Word n) = wordOf (sImm imm) := by
  rw [wordOf_eq_ofInt]
  have h : sImm imm = imm.toInt := by
    have := imm.isLt
    simp only [sImm, BitVec.toInt]
    split <;> split <;> omega
  rw [h]
  rfl

theorem zextImm_eq (imm : Imm16) : (zextImm imm : Word n) = wordOf (uImm imm) := by
  apply BitVec.eq_of_toNat_eq
  simp only [uImm, wordOf_natCast, zextImm, BitVec.zeroExtend, BitVec.toNat_setWidth, BitVec.toNat_ofNat]

/-- An integer that fits in n bits survives the reduction modulo 2^n, read with s. -/
theorem sInt_wordOf {z : Int} (h1 : -2 ^ (n.bits - 1) ≤ z) (h2 : z < 2 ^ (n.bits - 1)) :
    sInt (wordOf z : Word n) = z := by
  have h := n.two_pow_bits_int
  rw [sInt_eq_toInt, wordOf_eq_ofInt, BitVec.toInt_ofInt]
  apply Int.bmod_eq_of_le <;> push_cast <;> omega

/-- An integer that fits in n bits survives the reduction modulo 2^n, read with u. -/
theorem uInt_wordOf_of_lt {z : Int} (h1 : 0 ≤ z) (h2 : z < 2 ^ n.bits) : uInt (wordOf z : Word n) = z := by
  rw [uInt_wordOf, Int.emod_eq_of_lt h1 h2]

theorem sInt_sextImm (imm : Imm16) : sInt (sextImm imm : Word n) = sImm imm := by
  have := imm.isLt
  have h : (2 : Int) ^ 31 ≤ 2 ^ (n.bits - 1) := by exact_mod_cast n.two_pow_half_ge
  rw [sextImm_eq, sInt_wordOf] <;> unfold sImm <;> split <;> omega

theorem uInt_zextImm (imm : Imm16) : uInt (zextImm imm : Word n) = uImm imm := by
  have := imm.isLt
  have h := n.two_pow_ge_int
  rw [zextImm_eq, uInt_wordOf_of_lt] <;> unfold uImm <;> omega

theorem Mach.indexed_eq (s : Mach n) (b c : Reg) : s.indexed b c = wordOf (uInt (s.reg b) + uInt (s.reg c)) := by
  rw [wordOf_add, wordOf_uInt, wordOf_uInt]
  rfl

theorem Mach.based_eq (s : Mach n) (b : Reg) (imm : Imm16) : s.based b imm = wordOf (uInt (s.reg b) + sImm imm) := by
  rw [wordOf_add, wordOf_uInt, ← sextImm_eq]
  rfl

theorem Mach.relative_eq (s : Mach n) (imm : Imm16) : s.relative imm = wordOf (uInt s.pc + sImm imm) := by
  rw [wordOf_add, wordOf_uInt, ← sextImm_eq]
  rfl

theorem Mach.topAddress_eq (s : Mach n) (b : Reg) (w : Width) : s.topAddress b w = wordOf (uInt (s.reg b) - (w.bytes n)) := by
  rw [wordOf_sub, wordOf_uInt, wordOf_natCast]
  rfl

theorem pointer_up (v : Word n) (k : Nat) : v + BitVec.ofNat n.bits k = wordOf (uInt v + k) := by
  rw [wordOf_add, wordOf_uInt, wordOf_natCast]

/-! ### Data in memory -/

theorem Memory.readBE_eq (m : Memory) (a k : Nat) : m.readBE a k = bytesValue m a k := by
  induction k generalizing a with
  | zero => rfl
  | succ k ih =>
    rw [Memory.readBE, ih, bytesValue, bytesValue, Finset.sum_range_succ', add_comm]
    congr 1
    apply Finset.sum_congr rfl
    intro j _
    rw [show a + 1 + j = a + (j + 1) by omega, show k + 1 - 1 - (j + 1) = k - 1 - j by omega]

theorem extendDatum_zero (k v : Nat) (hv : v < 2 ^ (8 * k)) : (extendDatum .zero k v : Word n) = wordOf v := by
  apply BitVec.eq_of_toNat_eq
  rw [wordOf_natCast]
  simp only [extendDatum, BitVec.zeroExtend, BitVec.toNat_setWidth, BitVec.toNat_ofNat, Nat.mod_eq_of_lt hv]

theorem extendDatum_signed (k v : Nat) (hv : v < 2 ^ (8 * k)) :
    (extendDatum .signed k v : Word n) = wordOf (datumSigned k v) := by
  rw [wordOf_eq_ofInt]
  have h : (BitVec.ofNat (8 * k) v).toInt = datumSigned k v := by
    rw [BitVec.toInt, BitVec.toNat_ofNat, Nat.mod_eq_of_lt hv, datumSigned]
    cases k with
    | zero => simp at hv; simp [hv]
    | succ k =>
      have : 2 ^ (8 * (k + 1)) = 2 * 2 ^ (8 * (k + 1) - 1) := by
        rw [← pow_succ', show 8 * (k + 1) - 1 + 1 = 8 * (k + 1) by omega]
      split <;> split <;> first | omega | (push_cast; rfl)
  rw [extendDatum, BitVec.signExtend, h]

theorem Mach.load_eq (s : Mach n) (p : Word n) (w : Width) (e : Extension) :
    s.load p w e = wordOf (loadedValue s.mem p.toNat (w.bytes n) e) := by
  have h : s.mem.readBE p.toNat (w.bytes n) < 2 ^ (8 * (w.bytes n)) := by
    have := s.mem.readBE_lt p.toNat (w.bytes n)
    rwa [show (256 : Nat) = 2 ^ 8 by rfl, ← pow_mul] at this
  cases e
  · rw [Mach.load, extendDatum_signed _ _ h, Memory.readBE_eq]; rfl
  · rw [Mach.load, extendDatum_zero _ _ h, Memory.readBE_eq]; rfl

/-! ### Devices (48_halcode.md R431, R434) -/

/-- A numeral below 2^32 is itself at every width (00_scope.md R5). -/
theorem toNat_ofNat_small {k : Nat} (hk : k < 2 ^ 32) : (BitVec.ofNat n.bits k).toNat = k := by
  rw [BitVec.toNat_ofNat, Nat.mod_eq_of_lt (lt_of_lt_of_le hk n.two_pow_ge)]

/-- A pattern is a small numeral when its unsigned value is. -/
theorem eq_ofNat_iff {v : Word n} {k : Nat} (hk : k < 2 ^ 32) : v = BitVec.ofNat n.bits k ↔ v.toNat = k := by
  rw [← BitVec.toNat_inj, toNat_ofNat_small hk]

/-- The device of a register value, by its unsigned value. -/
theorem deviceOf_eq (v : Word n) : deviceOf v =
    if v.toNat = 0 then some .tty
    else if v.toNat = 0x1100 then some (.tape .tape1)
    else if v.toNat = 0x1101 then some (.tape .tape2)
    else none := by
  simp only [deviceOf, show v = 0x00000000 ↔ _ from eq_ofNat_iff (k := 0) (by decide),
    show v = 0x00001100 ↔ _ from eq_ofNat_iff (k := 0x1100) (by decide),
    show v = 0x00001101 ↔ _ from eq_ofNat_iff (k := 0x1101) (by decide)]

/-- Each ID names its device. -/
@[simp] theorem deviceOf_id (d : Device) : deviceOf (d.id : Word n) = some d := by
  rcases d with _ | _ | _ <;> simp [deviceOf_eq, Device.id, -BitVec.toNat_ofNat, toNat_ofNat_small]

/-- A value names no device when it is none of the three IDs. -/
theorem deviceOf_eq_none {v : Word n} : deviceOf v = none ↔ v.toNat ∉ [0, 0x1100, 0x1101] := by
  rw [deviceOf_eq]
  split <;> rename_i h0
  · simp [h0]
  split <;> rename_i h1
  · simp [h1]
  split <;> rename_i h2 <;> simp [h0, h1, h2]

/-- A value that names a device is its ID. -/
theorem eq_id_of_deviceOf {v : Word n} {d : Device} (h : deviceOf v = some d) : v = d.id := by
  unfold deviceOf at h
  split at h
  · cases h; assumption
  split at h
  · cases h; assumption
  split at h
  · cases h; assumption
  · cases h

/-! ### Frames -/

theorem holdsBytes_writeBE (m : Memory) (a k v : Nat) : HoldsBytes (m.writeBE a k v) a k v := by
  intro j hj
  rw [Memory.get_writeBE_inside _ _ _ _ _ hj, BitVec.toNat_ofNat]

theorem Mach.size_store (s : Mach n) (p : Word n) (w : Width) (v : Word n) : (s.store p w v).mem.size = s.mem.size :=
  Memory.size_writeBE _ _ _ _

/-- A store changes nothing but the bytes it writes. -/
theorem Mach.keeps_store (s : Mach n) (p : Word n) (w : Width) (v : Word n) :
    OnlyRegsAndBytes s (s.store p w v) [] p (w.bytes n) :=
  ⟨fun _ _ => rfl, ⟨s.size_store p w v, fun _ hb => Memory.get_writeBE_outside _ _ _ _ _ hb⟩, ⟨rfl, rfl, rfl⟩, rfl⟩

/-- A register write changes nothing but the register. -/
theorem Mach.keeps_setReg (s : Mach n) (a : Reg) (v : Word n) : OnlyRegs s (s.setReg a v) [a] :=
  ⟨fun r hr => Mach.reg_setReg_ne _ _ (by simpa using hr), ⟨rfl, fun _ => rfl⟩, ⟨rfl, rfl, rfl⟩, rfl⟩

/-- A fault changes nothing but pc and status. -/
theorem raisesFault_of {i : Instr} {s : Mach n} {f : Fault} (h : exec i s.toState = (raiseFault s f).lift) : RaisesFault i s f := by
  refine ⟨s.takeFault (s.pc - 4) f, h, rfl, ?_, fun _ _ => rfl, ⟨rfl, fun _ => rfl⟩, ⟨rfl, rfl, rfl⟩⟩
  rw [wordOf_sub, wordOf_uInt, wordOf_four]
  rfl

/-- A meaning that writes one register. -/
theorem setsReg_of {i : Instr} {s : Mach n} {a : Reg} {v : Word n} (h : exec i s.toState = (writeReg s a v).lift) : SetsReg i s a v :=
  ⟨s.setReg a v, h, by simp, rfl, s.keeps_setReg a v⟩

end Sys2Proof.Machine
end

