-- ==== Sys2Proof/Laws/Arith.lean ====
section
/-!
SUPPORT. Laws.Arith: the value of each function of Machine/Arith.lean and Machine/Flags.lean in the spec's integer
arithmetic (00_scope.md R10), one lemma per function.
-/

namespace Sys2Proof.Machine

variable {n : Xlen}

/-! ### Condition bits (10_state.md R35, 41_4op_integer.md R151) -/

theorem testBits_eq_false (v m : Word n) : testBits v m = false ↔ ∀ k, (v.getLsbD k && m.getLsbD k) = false := by
  rw [testBits, bne_eq_false_iff_eq]
  constructor
  · intro h k
    rw [← BitVec.getLsbD_and, h, BitVec.ofNat_eq_ofNat, BitVec.getLsbD_zero]
  · intro h
    apply BitVec.eq_of_getLsbD_eq
    intro k _
    rw [BitVec.getLsbD_and, h k, BitVec.ofNat_eq_ofNat, BitVec.getLsbD_zero]

/-- Testing one bit. -/
theorem testBits_twoPow (v : Word n) (j : Nat) (hj : j < n.bits) :
    testBits v (BitVec.twoPow n.bits j) = bitOf v j := by
  rw [bitOf_eq_getLsbD]
  cases hb : v.getLsbD j
  · rw [testBits_eq_false]
    intro k
    by_cases h : j = k
    · rw [← h, hb, Bool.false_and]
    · simp only [BitVec.getLsbD_twoPow, h, decide_false, Bool.and_false]
  · by_contra h
    have := (testBits_eq_false _ _).mp (Bool.eq_false_iff.mpr h) j
    simp only [hb, BitVec.getLsbD_twoPow, hj, decide_true, Bool.and_self, Bool.true_eq_false] at this

/-- Testing two masks at once. -/
theorem testBits_or (v m m' : Word n) : testBits v (m ||| m') = (testBits v m || testBits v m') := by
  rw [Bool.eq_iff_iff, Bool.or_eq_true, ← not_iff_not, Bool.not_eq_true, not_or, Bool.not_eq_true, Bool.not_eq_true,
    testBits_eq_false, testBits_eq_false, testBits_eq_false, ← forall_and]
  apply forall_congr'
  intro k
  rw [BitVec.getLsbD_or, Bool.and_or_distrib_left, Bool.or_eq_false_iff]

theorem ofNat_two_pow (j : Nat) : BitVec.ofNat n.bits (2 ^ j) = BitVec.twoPow n.bits j := by
  apply BitVec.eq_of_toNat_eq
  rw [BitVec.toNat_ofNat, BitVec.toNat_twoPow]

/-- Testing a condition bit given as a mask 2^j. -/
theorem testBits_mask (v : Word n) (j : Nat) (hj : j < 32) : testBits v (BitVec.ofNat n.bits (2 ^ j)) = bitOf v j := by
  rw [ofNat_two_pow, testBits_twoPow v j (lt_of_lt_of_le hj n.bits_ge)]

theorem testBits_carryBit (v : Word n) : testBits v carryBit = bitOf v 5 := testBits_mask v 5 (by decide)
theorem testBits_borrowBit (v : Word n) : testBits v borrowBit = bitOf v 4 := testBits_mask v 4 (by decide)
theorem testBits_overflowBit (v : Word n) : testBits v overflowBit = bitOf v 3 := testBits_mask v 3 (by decide)
theorem testBits_greaterBit (v : Word n) : testBits v greaterBit = bitOf v 2 := testBits_mask v 2 (by decide)
theorem testBits_equalBit (v : Word n) : testBits v equalBit = bitOf v 1 := testBits_mask v 1 (by decide)
theorem testBits_lessBit (v : Word n) : testBits v lessBit = bitOf v 0 := testBits_mask v 0 (by decide)

/-- Writing one bit keeps the others. -/
theorem bitOf_putBits (v : Word n) (j k : Nat) (f : Bool) (hk : k < n.bits) :
    bitOf (putBits v (BitVec.twoPow n.bits j) f) k = if k = j then f else bitOf v k := by
  simp only [bitOf_eq_getLsbD, putBits]
  by_cases h : k = j
  · subst h
    cases f <;> simp [hk]
  · cases f <;> simp [hk, h]

theorem bitOf_putBits_carryBit (v : Word n) (k : Nat) (f : Bool) (hk : k < n.bits) :
    bitOf (putBits v carryBit f) k = if k = 5 then f else bitOf v k := by
  rw [carryBit, show (0x20 : Word n) = BitVec.twoPow n.bits 5 from ofNat_two_pow 5, bitOf_putBits v 5 k f hk]

theorem bitOf_putBits_borrowBit (v : Word n) (k : Nat) (f : Bool) (hk : k < n.bits) :
    bitOf (putBits v borrowBit f) k = if k = 4 then f else bitOf v k := by
  rw [borrowBit, show (0x10 : Word n) = BitVec.twoPow n.bits 4 from ofNat_two_pow 4, bitOf_putBits v 4 k f hk]

theorem compareValue_eq (x y : Int) : (compareValue x y : Word n) = if x > y then 4 else if x = y then 2 else 1 := rfl

theorem relSigned_eq (r : Relation) (x y : Word n) : relSigned r x y = r.holds (sInt x) (sInt y) := by
  rw [relSigned, sInt_eq_toInt, sInt_eq_toInt]

theorem relUnsigned_eq (r : Relation) (x y : Word n) : relUnsigned r x y = r.holds (uInt x) (uInt y) := rfl

/-! ### Sums, differences, products -/

theorem wordOf_bitInt (c : Bool) : (wordOf (bitInt c) : Word n) = if c then 1 else 0 := by
  cases c
  · exact wordOf_natCast 0
  · exact wordOf_natCast 1

theorem bitInt_eq (c : Bool) : bitInt c = c.toNat := by
  cases c <;> rfl

theorem addCarry_eq (x y : Word n) (c : Bool) : addCarry x y c = wordOf (uInt x + uInt y + bitInt c) := by
  rw [wordOf_add, wordOf_add, wordOf_uInt, wordOf_uInt, wordOf_bitInt]
  rfl

theorem subBorrow_eq (x y : Word n) (c : Bool) : subBorrow x y c = wordOf (uInt x - uInt y - bitInt c) := by
  rw [wordOf_sub, wordOf_sub, wordOf_uInt, wordOf_uInt, wordOf_bitInt]
  rfl

theorem carryUnsigned_eq (x y : Word n) (c : Bool) :
    carryUnsigned x y c = decide (2 ^ n.bits ≤ uInt x + uInt y + bitInt c) := by
  rw [carryUnsigned, decide_eq_decide]
  rw [uInt, uInt, bitInt_eq]
  exact_mod_cast Iff.rfl

theorem borrowUnsigned_eq (x y : Word n) (c : Bool) :
    borrowUnsigned x y c = decide (uInt x < uInt y + bitInt c) := by
  rw [borrowUnsigned, decide_eq_decide]
  rw [uInt, uInt, bitInt_eq]
  exact_mod_cast Iff.rfl

theorem mulLow_eq_signed (x y : Word n) : mulLow x y = wordOf (sInt x * sInt y) := by
  rw [wordOf_mul, wordOf_sInt, wordOf_sInt, mulLow]

theorem mulLow_eq_unsigned (x y : Word n) : mulLow x y = wordOf (uInt x * uInt y) := by
  rw [wordOf_mul, wordOf_uInt, wordOf_uInt, mulLow]

theorem mulHighSigned_eq (x y : Word n) : mulHighSigned x y = wordOf (sInt x * sInt y / 2 ^ n.bits) := by
  rw [wordOf_eq_ofInt, sInt_eq_toInt, sInt_eq_toInt, mulHighSigned]

theorem mulHighUnsigned_eq (x y : Word n) : mulHighUnsigned x y = wordOf (uInt x * uInt y / 2 ^ n.bits) := by
  rw [mulHighUnsigned, ← wordOf_natCast]
  push_cast
  rfl

/-! ### Bounds -/

theorem uInt_nonneg (v : Word n) : 0 ≤ uInt v := Int.natCast_nonneg _

theorem uInt_lt (v : Word n) : uInt v < 2 ^ n.bits := by
  have := v.isLt
  zify at this
  exact this

theorem sInt_lower (v : Word n) : -2 ^ (n.bits - 1) ≤ sInt v := by
  have h := v.isLt
  have hn := n.two_pow_bits_int
  zify at h
  unfold sInt
  split <;> rename_i h' <;> zify at h' <;> omega

theorem sInt_upper (v : Word n) : sInt v < 2 ^ (n.bits - 1) := by
  have h := v.isLt
  have hn := n.two_pow_bits_int
  zify at h
  unfold sInt
  split <;> rename_i h' <;> zify at h' <;> omega

/-! ### Division (41_4op_integer.md R167, R168) -/

theorem divideSigned_zero {x y : Word n} (h : sInt y = 0) : divideSigned x y = .error .divideByZero := by
  rw [sInt_eq_toInt] at h
  simp only [divideSigned, h, if_true]

theorem divideSigned_corner {x y : Word n} (hx : sInt x = -2 ^ (n.bits - 1)) (hy : sInt y = -1) :
    divideSigned x y = match Config.divOverflow with
      | .fault => .error .divideOverflow
      | .wrap => .ok (wordOf (-2 ^ (n.bits - 1)), 0) := by
  rw [sInt_eq_toInt] at hx hy
  have h0 : ¬y.toInt = 0 := by rw [hy]; decide
  unfold divideSigned
  cases Config.divOverflow <;> simp only [if_neg h0, if_pos (And.intro hx hy), wordOf_eq_ofInt]

theorem divideSigned_ok {x y : Word n} (hy : sInt y ≠ 0) (h : ¬(sInt x = -2 ^ (n.bits - 1) ∧ sInt y = -1)) :
    divideSigned x y = .ok (wordOf ((sInt x).tdiv (sInt y)), wordOf (sInt x - (sInt x).tdiv (sInt y) * sInt y)) := by
  rw [sInt_eq_toInt, sInt_eq_toInt] at *
  rw [divideSigned, if_neg hy, if_neg h, wordOf_eq_ofInt, wordOf_eq_ofInt]

theorem divideUnsigned_zero {x y : Word n} (h : uInt y = 0) : divideUnsigned x y = .error .divideByZero := by
  have : y.toNat = 0 := by simpa [uInt] using h
  simp only [divideUnsigned, this, if_true]

theorem divideUnsigned_ok {x y : Word n} (h : uInt y ≠ 0) :
    divideUnsigned x y = .ok (wordOf (uInt x / uInt y), wordOf (uInt x % uInt y)) := by
  have hy : y.toNat ≠ 0 := by simpa [uInt] using h
  rw [divideUnsigned, if_neg hy, ← wordOf_natCast, ← wordOf_natCast]
  push_cast
  rfl

/-! ### Selection -/

theorem maxSigned_eq (x y : Word n) : sInt (maxSigned x y) = max (sInt x) (sInt y) := by
  simp only [maxSigned, ← sInt_eq_toInt]
  split <;> omega

theorem minSigned_eq (x y : Word n) : sInt (minSigned x y) = min (sInt x) (sInt y) := by
  simp only [minSigned, ← sInt_eq_toInt]
  split <;> omega

theorem maxUnsigned_eq (x y : Word n) : uInt (maxUnsigned x y) = max (uInt x) (uInt y) := by
  simp only [maxUnsigned, uInt]
  split <;> omega

theorem minUnsigned_eq (x y : Word n) : uInt (minUnsigned x y) = min (uInt x) (uInt y) := by
  simp only [minUnsigned, uInt]
  split <;> omega

/-! ### Shifts (42_3op_integer_alu.md R218 to R225) -/

theorem shiftLeft0_eq (x : Word n) (k : Nat) : shiftLeft0 x k = wordOf (uInt x * 2 ^ k) := by
  rw [shiftLeft0, BitVec.shiftLeft_eq_mul_twoPow, wordOf_mul, wordOf_uInt]
  congr 1
  rw [show (2 : Int) ^ k = ((2 ^ k : Nat) : Int) by push_cast; rfl, wordOf_natCast]
  apply BitVec.eq_of_toNat_eq
  rw [BitVec.toNat_twoPow, BitVec.toNat_ofNat]

theorem shiftRight0_eq (x : Word n) (k : Nat) : shiftRight0 x k = wordOf (uInt x / 2 ^ k) := by
  rw [show uInt x / 2 ^ k = ((x.toNat / 2 ^ k : Nat) : Int) by push_cast; rfl, wordOf_natCast]
  apply BitVec.eq_of_toNat_eq
  have : x.toNat / 2 ^ k < 2 ^ n.bits := lt_of_le_of_lt (Nat.div_le_self _ _) x.isLt
  rw [shiftRight0, BitVec.toNat_ushiftRight, Nat.shiftRight_eq_div_pow, BitVec.toNat_ofNat, Nat.mod_eq_of_lt this]

theorem shiftRightSign_eq (x : Word n) (k : Nat) : shiftRightSign x k = wordOf (sInt x / 2 ^ k) := by
  rw [shiftRightSign, wordOf_eq_ofInt, sInt_eq_toInt, BitVec.sshiftRight, Int.shiftRight_eq_div_pow]
  push_cast
  rfl

/-- Patterns with no common bit: their disjunction is their sum. -/
theorem or_eq_add {x y : Word n} (h : ∀ k, k < n.bits → (x.getLsbD k && y.getLsbD k) = false) : x ||| y = x + y := by
  symm
  apply BitVec.add_eq_or_of_and_eq_zero
  apply BitVec.eq_of_getLsbD_eq
  intro k hk
  rw [BitVec.getLsbD_and, h k hk, BitVec.getLsbD_zero]

theorem getLsbD_ones (k j : Nat) : (BitVec.ofNat n.bits (2 ^ k - 1)).getLsbD j = (decide (j < n.bits) && decide (j < k)) := by
  rw [BitVec.getLsbD_ofNat, Nat.testBit_two_pow_sub_one]

theorem shiftLeft1_eq (x : Word n) (k : Nat) : shiftLeft1 x k = wordOf (uInt x * 2 ^ k + (2 ^ k - 1)) := by
  rw [wordOf_add, ← shiftLeft0_eq, shiftLeft0, shiftLeft1, or_eq_add]
  · congr 1
    rw [← wordOf_natCast]
    congr 1
    have : 1 ≤ 2 ^ k := Nat.one_le_two_pow
    push_cast [this]
    rfl
  · intro j hj
    rw [BitVec.getLsbD_shiftLeft, getLsbD_ones]
    by_cases h : j < k <;> simp [h]

theorem shiftRight1_eq (x : Word n) (k : Nat) (hk : k ≤ n.bits) :
    shiftRight1 x k = wordOf (uInt x / 2 ^ k + (2 ^ k - 1) * 2 ^ (n.bits - k)) := by
  have hbits : BitVec.ofNat n.bits ((2 ^ k - 1) * 2 ^ (n.bits - k)) =
      BitVec.ofNat n.bits (2 ^ k - 1) <<< (n.bits - k) := by
    apply BitVec.eq_of_toNat_eq
    rw [BitVec.toNat_shiftLeft, Nat.shiftLeft_eq, BitVec.toNat_ofNat, BitVec.toNat_ofNat, Nat.mod_mul_mod]
  rw [wordOf_add, ← shiftRight0_eq, shiftRight0, shiftRight1, or_eq_add]
  · congr 1
    rw [← wordOf_natCast]
    congr 1
    have : 1 ≤ 2 ^ k := Nat.one_le_two_pow
    push_cast [this]
    rfl
  · intro j hj
    rw [hbits, BitVec.getLsbD_ushiftRight, BitVec.getLsbD_shiftLeft, getLsbD_ones]
    by_cases h : j < n.bits - k
    · simp [h]
    · rw [BitVec.getLsbD_of_ge _ _ (by omega)]
      rfl

theorem bitOf_rotateLeft (x : Word n) {r k : Nat} (hr : r < n.bits) (hk : k < n.bits) :
    bitOf (rotateLeft x r) k = bitOf x ((k + (n.bits - r)) % n.bits) := by
  simp only [bitOf_eq_getLsbD, rotateLeft, BitVec.getLsbD_or, BitVec.getLsbD_shiftLeft, BitVec.getLsbD_ushiftRight]
  by_cases h : k < r
  · rw [Nat.mod_eq_of_lt (by omega), show n.bits - r + k = k + (n.bits - r) by omega]
    simp [h]
  · rw [show k + (n.bits - r) = (k - r) + n.bits by omega, Nat.add_mod_right, Nat.mod_eq_of_lt (by omega),
      BitVec.getLsbD_of_ge x _ (show n.bits ≤ n.bits - r + k by omega)]
    simp [h, hk]

theorem bitOf_rotateRight (x : Word n) {r k : Nat} (hr : r < n.bits) (hk : k < n.bits) :
    bitOf (rotateRight x r) k = bitOf x ((k + r) % n.bits) := by
  simp only [bitOf_eq_getLsbD, rotateRight, BitVec.getLsbD_or, BitVec.getLsbD_shiftLeft, BitVec.getLsbD_ushiftRight]
  by_cases h : k < n.bits - r
  · rw [Nat.mod_eq_of_lt (by omega), show r + k = k + r by omega]
    simp [h]
  · rw [show k + r = (k - (n.bits - r)) + n.bits by omega, Nat.add_mod_right, Nat.mod_eq_of_lt (by omega),
      BitVec.getLsbD_of_ge x _ (show n.bits ≤ r + k by omega)]
    simp [h, hk]

end Sys2Proof.Machine
end

