-- ==== Sys2Proof/Laws/Decode.lean ====
section
/-!
SUPPORT. Laws.Decode: what the fields of an encoded word are, so that the decoder's answer on a word of a format is the
answer of that format's table; and a word is the word of its fields.
-/

namespace Sys2Proof

/-- A field of a word given as a number. -/
theorem slice_ofNat (n hi lo : Nat) : slice (BitVec.ofNat 32 n) hi lo = n % 2 ^ 32 / 2 ^ lo % 2 ^ (hi - lo + 1) := by
  simp only [slice, BitVec.toNat_ofNat, Nat.shiftRight_eq_div_pow]

/-- A field as quotient and remainder. -/
theorem slice_eq (w : InstrWord) (hi lo : Nat) : slice w hi lo = w.toNat / 2 ^ lo % 2 ^ (hi - lo + 1) := by
  simp only [slice, Nat.shiftRight_eq_div_pow]

theorem nibble_eq {w : InstrWord} {lo : Nat} {r : Reg} (h : slice w (lo + 3) lo = r.val) : nibble w lo = r := by
  apply Fin.ext
  simp only [nibble, Fin.ofNat, h]
  exact Nat.mod_eq_of_lt r.isLt

theorem val_nibble (w : InstrWord) (lo : Nat) : (nibble w lo).val = w.toNat / 2 ^ lo % 16 := by
  simp only [nibble, Fin.ofNat, slice_eq, show lo + 3 - lo + 1 = 4 by omega]
  omega

theorem immediate_eq {w : InstrWord} {imm : Imm16} (h : slice w 15 0 = imm.toNat) : immediate w = imm := by
  simp only [immediate, h, BitVec.ofNat_toNat, BitVec.setWidth_eq]

theorem toNat_immediate (w : InstrWord) : (immediate w).toNat = w.toNat % 65536 := by
  simp only [immediate, slice_eq, BitVec.toNat_ofNat]
  omega

theorem low24_eq {w : InstrWord} {v : BitVec 24} (h : slice w 23 0 = v.toNat) : low24 w = v := by
  simp only [low24, h, BitVec.ofNat_toNat, BitVec.setWidth_eq]

theorem toNat_low24 (w : InstrWord) : (low24 w).toNat = w.toNat % 16777216 := by
  simp only [low24, slice_eq, BitVec.toNat_ofNat]
  omega

/-! ### The decoder on a word of each format -/

theorem decodeRow_word4OP (x : Nat) (a b c d : Reg) (hx : x < 256) :
    decodeRow (word4OP x a b c d) = decode4OP x a b c d := by
  have h0 : slice (word4OP x a b c d) 31 24 = 0x01 := by rw [word4OP, slice_ofNat]; omega
  have h1 : slice (word4OP x a b c d) 23 16 = x := by rw [word4OP, slice_ofNat]; omega
  have ha : nibble (word4OP x a b c d) 12 = a := nibble_eq (by rw [word4OP, slice_ofNat]; omega)
  have hb : nibble (word4OP x a b c d) 8 = b := nibble_eq (by rw [word4OP, slice_ofNat]; omega)
  have hc : nibble (word4OP x a b c d) 4 = c := nibble_eq (by rw [word4OP, slice_ofNat]; omega)
  have hd : nibble (word4OP x a b c d) 0 = d := nibble_eq (by rw [word4OP, slice_ofNat]; omega)
  simp only [decodeRow, h0, h1, ha, hb, hc, hd]

theorem decodeRow_word3OP (x : Nat) (a b c : Reg) (hx : x < 4096) :
    decodeRow (word3OP x a b c) = decode3OP x a b c := by
  have h0 : slice (word3OP x a b c) 31 24 = 0x05 := by rw [word3OP, slice_ofNat]; omega
  have h1 : slice (word3OP x a b c) 23 12 = x := by rw [word3OP, slice_ofNat]; omega
  have ha : nibble (word3OP x a b c) 8 = a := nibble_eq (by rw [word3OP, slice_ofNat]; omega)
  have hb : nibble (word3OP x a b c) 4 = b := nibble_eq (by rw [word3OP, slice_ofNat]; omega)
  have hc : nibble (word3OP x a b c) 0 = c := nibble_eq (by rw [word3OP, slice_ofNat]; omega)
  simp only [decodeRow, h0, h1, ha, hb, hc]

theorem decodeRow_word2OP (x : Nat) (a b : Reg) (hx : x < 65536) :
    decodeRow (word2OP x a b) = decode2OP x a b := by
  have h0 : slice (word2OP x a b) 31 24 = 0x09 := by rw [word2OP, slice_ofNat]; omega
  have h1 : slice (word2OP x a b) 23 8 = x := by rw [word2OP, slice_ofNat]; omega
  have ha : nibble (word2OP x a b) 4 = a := nibble_eq (by rw [word2OP, slice_ofNat]; omega)
  have hb : nibble (word2OP x a b) 0 = b := nibble_eq (by rw [word2OP, slice_ofNat]; omega)
  simp only [decodeRow, h0, h1, ha, hb]

theorem decodeRow_word1OP (x : Nat) (a : Reg) (hx : x < 1048576) :
    decodeRow (word1OP x a) = decode1OP x a := by
  have h0 : slice (word1OP x a) 31 24 = 0x0D := by rw [word1OP, slice_ofNat]; omega
  have h1 : slice (word1OP x a) 23 4 = x := by rw [word1OP, slice_ofNat]; omega
  have ha : nibble (word1OP x a) 0 = a := nibble_eq (by rw [word1OP, slice_ofNat]; omega)
  simp only [decodeRow, h0, h1, ha]

/-- The fields of a 2OPI word. -/
theorem fields_word2OPI (opcode : Nat) (a b : Reg) (imm : Imm16) (h : opcode < 256) :
    slice (word2OPI opcode a b imm) 31 24 = opcode ∧ nibble (word2OPI opcode a b imm) 20 = a ∧
      nibble (word2OPI opcode a b imm) 16 = b ∧ immediate (word2OPI opcode a b imm) = imm := by
  refine ⟨?_, nibble_eq ?_, nibble_eq ?_, immediate_eq ?_⟩ <;> rw [word2OPI, slice_ofNat] <;> omega

/-- The fields of a 1OPI word. -/
theorem fields_word1OPI (opcode x : Nat) (a : Reg) (imm : Imm16) (h : opcode < 256) (hx : x < 16) :
    slice (word1OPI opcode x a imm) 31 24 = opcode ∧ slice (word1OPI opcode x a imm) 23 20 = x ∧
      nibble (word1OPI opcode x a imm) 16 = a ∧ immediate (word1OPI opcode x a imm) = imm := by
  refine ⟨?_, ?_, nibble_eq ?_, immediate_eq ?_⟩ <;> rw [word1OPI, slice_ofNat] <;> omega

/-- The fields of a 0OPI word. -/
theorem fields_word0OPI (imm : Imm16) :
    slice (word0OPI imm) 31 24 = 0x3C ∧ slice (word0OPI imm) 23 16 = 0 ∧ immediate (word0OPI imm) = imm := by
  refine ⟨?_, ?_, immediate_eq ?_⟩ <;> rw [word0OPI, slice_ofNat] <;> omega

/-- The fields of a HALCODE word. -/
theorem fields_wordHalcode (callId : Nat) (h : callId < 16777216) :
    slice (wordHalcode callId) 31 24 = 0x42 ∧ slice (wordHalcode callId) 23 0 = callId := by
  constructor <;> rw [wordHalcode, slice_ofNat] <;> omega

/-- The fields of a 0OP word. -/
theorem fields_word0OP (opcode : Nat) (v : BitVec 24) (h : opcode < 256) :
    slice (word0OP opcode v) 31 24 = opcode ∧ low24 (word0OP opcode v) = v := by
  refine ⟨?_, low24_eq ?_⟩ <;> rw [word0OP, slice_ofNat] <;> omega

theorem decodeRow_jumpIf (x : Nat) (a : Reg) (imm : Imm16) (hx : x < 16) :
    decodeRow (word1OPI 0x2C x a imm) = decodeJumpIf x a imm := by
  have h := fields_word1OPI 0x2C x a imm (by decide) hx
  simp only [decodeRow, h]

theorem decodeRow_branchImm (x : Nat) (a : Reg) (imm : Imm16) (hx : x < 16) :
    decodeRow (word1OPI 0x2D x a imm) = decodeBranchImm x a imm := by
  have h := fields_word1OPI 0x2D x a imm (by decide) hx
  simp only [decodeRow, h]

theorem decodeRow_loadRel (x : Nat) (a : Reg) (imm : Imm16) (hx : x < 16) :
    decodeRow (word1OPI 0x2E x a imm) = decodeLoadRel x a imm := by
  have h := fields_word1OPI 0x2E x a imm (by decide) hx
  simp only [decodeRow, h]

theorem decodeRow_storeRel (x : Nat) (a : Reg) (imm : Imm16) (hx : x < 16) :
    decodeRow (word1OPI 0x2F x a imm) = decodeStoreRel x a imm := by
  have h := fields_word1OPI 0x2F x a imm (by decide) hx
  simp only [decodeRow, h]

theorem decodeRow_skipSigned (x : Nat) (a : Reg) (imm : Imm16) (hx : x < 16) :
    decodeRow (word1OPI 0xA0 x a imm) = decodeSkipSigned x a imm := by
  have h := fields_word1OPI 0xA0 x a imm (by decide) hx
  simp only [decodeRow, h]

theorem decodeRow_skipUnsigned (x : Nat) (a : Reg) (imm : Imm16) (hx : x < 16) :
    decodeRow (word1OPI 0xA1 x a imm) = decodeSkipUnsigned x a imm := by
  have h := fields_word1OPI 0xA1 x a imm (by decide) hx
  simp only [decodeRow, h]

/-- A word whose opcode byte belongs to no other format is decoded as 2OPI. -/
theorem decodeRow_word2OPI (opcode : Nat) (a b : Reg) (imm : Imm16) (h : opcode < 256)
    (other : opcode ∉ [0x00, 0x01, 0x05, 0x09, 0x0D, 0x2C, 0x2D, 0x2E, 0x2F, 0x3C, 0x42, 0xA0, 0xA1, 0xFF]) :
    decodeRow (word2OPI opcode a b imm) = decode2OPI opcode a b imm := by
  have hf := fields_word2OPI opcode a b imm h
  unfold decodeRow
  split <;> rename_i ho <;> rw [hf.1] at ho
  all_goals first | (subst ho; simp at other) | simp only [hf]

/-! ### A word is the word of its fields -/

theorem word4OP_fields {w : InstrWord} (h : slice w 31 24 = 0x01) :
    word4OP (slice w 23 16) (nibble w 12) (nibble w 8) (nibble w 4) (nibble w 0) = w := by
  apply BitVec.eq_of_toNat_eq
  simp only [slice_eq] at h
  simp only [word4OP, BitVec.toNat_ofNat, val_nibble, slice_eq]
  omega

theorem word3OP_fields {w : InstrWord} (h : slice w 31 24 = 0x05) :
    word3OP (slice w 23 12) (nibble w 8) (nibble w 4) (nibble w 0) = w := by
  apply BitVec.eq_of_toNat_eq
  simp only [slice_eq] at h
  simp only [word3OP, BitVec.toNat_ofNat, val_nibble, slice_eq]
  omega

theorem word2OP_fields {w : InstrWord} (h : slice w 31 24 = 0x09) :
    word2OP (slice w 23 8) (nibble w 4) (nibble w 0) = w := by
  apply BitVec.eq_of_toNat_eq
  simp only [slice_eq] at h
  simp only [word2OP, BitVec.toNat_ofNat, val_nibble, slice_eq]
  omega

theorem word1OP_fields {w : InstrWord} (h : slice w 31 24 = 0x0D) :
    word1OP (slice w 23 4) (nibble w 0) = w := by
  apply BitVec.eq_of_toNat_eq
  simp only [slice_eq] at h
  simp only [word1OP, BitVec.toNat_ofNat, val_nibble, slice_eq]
  omega

theorem word2OPI_fields {w : InstrWord} {opcode : Nat} (h : slice w 31 24 = opcode) :
    word2OPI opcode (nibble w 20) (nibble w 16) (immediate w) = w := by
  apply BitVec.eq_of_toNat_eq
  simp only [slice_eq] at h
  simp only [word2OPI, BitVec.toNat_ofNat, val_nibble, toNat_immediate]
  omega

theorem word1OPI_fields {w : InstrWord} {opcode : Nat} (h : slice w 31 24 = opcode) :
    word1OPI opcode (slice w 23 20) (nibble w 16) (immediate w) = w := by
  apply BitVec.eq_of_toNat_eq
  simp only [slice_eq] at h
  simp only [word1OPI, BitVec.toNat_ofNat, val_nibble, toNat_immediate, slice_eq]
  omega

theorem word0OPI_fields {w : InstrWord} (h : slice w 31 24 = 0x3C) (h' : slice w 23 16 = 0) :
    word0OPI (immediate w) = w := by
  apply BitVec.eq_of_toNat_eq
  simp only [slice_eq] at h h'
  simp only [word0OPI, BitVec.toNat_ofNat, toNat_immediate]
  omega

theorem wordHalcode_fields {w : InstrWord} (h : slice w 31 24 = 0x42) : wordHalcode (slice w 23 0) = w := by
  apply BitVec.eq_of_toNat_eq
  simp only [slice_eq] at h
  simp only [wordHalcode, BitVec.toNat_ofNat, slice_eq]
  omega

theorem word0OP_fields {w : InstrWord} {opcode : Nat} (h : slice w 31 24 = opcode) :
    word0OP opcode (low24 w) = w := by
  apply BitVec.eq_of_toNat_eq
  simp only [slice_eq] at h
  simp only [word0OP, BitVec.toNat_ofNat, toNat_low24]
  omega

end Sys2Proof
end

