-- ==== Sys2Proof/Laws/PerInstr.lean ====
section
/-!
SUPPORT. Laws.PerInstr: for every instruction, the word the encoder gives it stands in the instruction's own row of
spec/opcode_table.json: under the row's mask its bits are the row's match (30_encoding.md R104). The encoder is written
from the formats (R92 to R100) and the rows from the table, so the two accounts of an encoding agree.
-/

namespace Sys2Proof.Laws

/-- Masking off the low bits of a word. -/
theorem and_highMask (w : InstrWord) (lo : Nat) : w &&& (BitVec.allOnes 32 <<< lo) = (w >>> lo) <<< lo := by
  ext i hi
  by_cases h : i < lo
  · simp [h]
  · simp [h, show lo + (i - lo) = i by omega, BitVec.getLsbD_eq_getElem hi, -BitVec.reduceAllOnes]

/-- A row whose mask is all bits from `lo` up matches by the number above `lo`. -/
theorem matchesRow_high {w : InstrWord} {m k lo : Nat} (hk : BitVec.ofNat 32 k = BitVec.allOnes 32 <<< lo)
    (h : w.toNat / 2 ^ lo * 2 ^ lo % 2 ^ 32 = m % 2 ^ 32) : matchesRow w (m, k) = true := by
  simp only [matchesRow, hk, and_highMask, beq_iff_eq]
  apply BitVec.eq_of_toNat_eq
  rw [BitVec.toNat_ofNat, ← h]
  simp only [BitVec.toNat_shiftLeft, BitVec.toNat_ushiftRight, Nat.shiftLeft_eq, Nat.shiftRight_eq_div_pow]

end Sys2Proof.Laws

namespace Sys2Proof.Laws.TableRow

/-- The instruction's word matches the instruction's row. -/
def Statement (i : Instr) : Prop :=
  matchesRow (encode i) (tableRow i) = true

theorem of4OP (x m : Nat) (a b c d : Reg) (hm : m = 0x01000000 + x * 0x10000) :
    matchesRow (word4OP x a b c d) (m, 0xFFFF0000) = true :=
  matchesRow_high (lo := 16) (by decide) (by rw [word4OP, BitVec.toNat_ofNat]; omega)

theorem of3OP (x m : Nat) (a b c : Reg) (hm : m = 0x05000000 + x * 0x1000) :
    matchesRow (word3OP x a b c) (m, 0xFFFFF000) = true :=
  matchesRow_high (lo := 12) (by decide) (by rw [word3OP, BitVec.toNat_ofNat]; omega)

theorem of2OP (x m : Nat) (a b : Reg) (hm : m = 0x09000000 + x * 0x100) :
    matchesRow (word2OP x a b) (m, 0xFFFFFF00) = true :=
  matchesRow_high (lo := 8) (by decide) (by rw [word2OP, BitVec.toNat_ofNat]; omega)

theorem of1OP (x m : Nat) (a : Reg) (hm : m = 0x0D000000 + x * 0x10) :
    matchesRow (word1OP x a) (m, 0xFFFFFFF0) = true :=
  matchesRow_high (lo := 4) (by decide) (by rw [word1OP, BitVec.toNat_ofNat]; omega)

theorem of2OPI (opcode m : Nat) (a b : Reg) (imm : Imm16) (hm : m = opcode * 0x1000000) :
    matchesRow (word2OPI opcode a b imm) (m, 0xFF000000) = true :=
  matchesRow_high (lo := 24) (by decide) (by rw [word2OPI, BitVec.toNat_ofNat]; omega)

theorem of1OPI (opcode x m : Nat) (a : Reg) (imm : Imm16)
    (hm : m = opcode * 0x1000000 + x * 0x100000) :
    matchesRow (word1OPI opcode x a imm) (m, 0xFFF00000) = true :=
  matchesRow_high (lo := 20) (by decide) (by rw [word1OPI, BitVec.toNat_ofNat]; omega)

theorem of0OP (opcode m : Nat) (v : BitVec 24) (hm : m = opcode * 0x1000000) :
    matchesRow (word0OP opcode v) (m, 0xFF000000) = true :=
  matchesRow_high (lo := 24) (by decide) (by rw [word0OP, BitVec.toNat_ofNat]; omega)

theorem nop (ignored : BitVec 24) : Statement (.nop ignored) :=
  of0OP _ _ ignored (by decide)
theorem halt (ignored : BitVec 24) : Statement (.halt ignored) :=
  of0OP _ _ ignored (by decide)
theorem addCi (a b c d : Reg) : Statement (.addCi a b c d) :=
  of4OP _ _ a b c d (by decide)
theorem addCo (a b c d : Reg) : Statement (.addCo a b c d) :=
  of4OP _ _ a b c d (by decide)
theorem addCio (a b c d : Reg) : Statement (.addCio a b c d) :=
  of4OP _ _ a b c d (by decide)
theorem adduCi (a b c d : Reg) : Statement (.adduCi a b c d) :=
  of4OP _ _ a b c d (by decide)
theorem adduCo (a b c d : Reg) : Statement (.adduCo a b c d) :=
  of4OP _ _ a b c d (by decide)
theorem adduCio (a b c d : Reg) : Statement (.adduCio a b c d) :=
  of4OP _ _ a b c d (by decide)
theorem subBi (a b c d : Reg) : Statement (.subBi a b c d) :=
  of4OP _ _ a b c d (by decide)
theorem subBo (a b c d : Reg) : Statement (.subBo a b c d) :=
  of4OP _ _ a b c d (by decide)
theorem subBio (a b c d : Reg) : Statement (.subBio a b c d) :=
  of4OP _ _ a b c d (by decide)
theorem subuBi (a b c d : Reg) : Statement (.subuBi a b c d) :=
  of4OP _ _ a b c d (by decide)
theorem subuBo (a b c d : Reg) : Statement (.subuBo a b c d) :=
  of4OP _ _ a b c d (by decide)
theorem subuBio (a b c d : Reg) : Statement (.subuBio a b c d) :=
  of4OP _ _ a b c d (by decide)
theorem multiply (a b c d : Reg) : Statement (.multiply a b c d) :=
  of4OP _ _ a b c d (by decide)
theorem multiplyu (a b c d : Reg) : Statement (.multiplyu a b c d) :=
  of4OP _ _ a b c d (by decide)
theorem divide (a b c d : Reg) : Statement (.divide a b c d) :=
  of4OP _ _ a b c d (by decide)
theorem divideu (a b c d : Reg) : Statement (.divideu a b c d) :=
  of4OP _ _ a b c d (by decide)
theorem mux (a b c d : Reg) : Statement (.mux a b c d) :=
  of4OP _ _ a b c d (by decide)
theorem nmux (a b c d : Reg) : Statement (.nmux a b c d) :=
  of4OP _ _ a b c d (by decide)
theorem sort (a b c d : Reg) : Statement (.sort a b c d) :=
  of4OP _ _ a b c d (by decide)
theorem sortu (a b c d : Reg) : Statement (.sortu a b c d) :=
  of4OP _ _ a b c d (by decide)
theorem add (a b c : Reg) : Statement (.add a b c) :=
  of3OP _ _ a b c (by decide)
theorem addu (a b c : Reg) : Statement (.addu a b c) :=
  of3OP _ _ a b c (by decide)
theorem sub (a b c : Reg) : Statement (.sub a b c) :=
  of3OP _ _ a b c (by decide)
theorem subu (a b c : Reg) : Statement (.subu a b c) :=
  of3OP _ _ a b c (by decide)
theorem cmp (a b c : Reg) : Statement (.cmp a b c) :=
  of3OP _ _ a b c (by decide)
theorem cmpu (a b c : Reg) : Statement (.cmpu a b c) :=
  of3OP _ _ a b c (by decide)
theorem mul (a b c : Reg) : Statement (.mul a b c) :=
  of3OP _ _ a b c (by decide)
theorem mulh (a b c : Reg) : Statement (.mulh a b c) :=
  of3OP _ _ a b c (by decide)
theorem mulu (a b c : Reg) : Statement (.mulu a b c) :=
  of3OP _ _ a b c (by decide)
theorem muluh (a b c : Reg) : Statement (.muluh a b c) :=
  of3OP _ _ a b c (by decide)
theorem div (a b c : Reg) : Statement (.div a b c) :=
  of3OP _ _ a b c (by decide)
theorem mod (a b c : Reg) : Statement (.mod a b c) :=
  of3OP _ _ a b c (by decide)
theorem divu (a b c : Reg) : Statement (.divu a b c) :=
  of3OP _ _ a b c (by decide)
theorem modu (a b c : Reg) : Statement (.modu a b c) :=
  of3OP _ _ a b c (by decide)
theorem max (a b c : Reg) : Statement (.max a b c) :=
  of3OP _ _ a b c (by decide)
theorem maxu (a b c : Reg) : Statement (.maxu a b c) :=
  of3OP _ _ a b c (by decide)
theorem min (a b c : Reg) : Statement (.min a b c) :=
  of3OP _ _ a b c (by decide)
theorem minu (a b c : Reg) : Statement (.minu a b c) :=
  of3OP _ _ a b c (by decide)
theorem pack (a b c : Reg) : Statement (.pack a b c) :=
  of3OP _ _ a b c (by decide)
theorem unpack (a b c : Reg) : Statement (.unpack a b c) :=
  of3OP _ _ a b c (by decide)
theorem pack8Co (a b c : Reg) : Statement (.pack8Co a b c) :=
  of3OP _ _ a b c (by decide)
theorem pack8uCo (a b c : Reg) : Statement (.pack8uCo a b c) :=
  of3OP _ _ a b c (by decide)
theorem pack16Co (a b c : Reg) : Statement (.pack16Co a b c) :=
  of3OP _ _ a b c (by decide)
theorem pack16uCo (a b c : Reg) : Statement (.pack16uCo a b c) :=
  of3OP _ _ a b c (by decide)
theorem pack32Co (a b c : Reg) : Statement (.pack32Co a b c) :=
  of3OP _ _ a b c (by decide)
theorem pack32uCo (a b c : Reg) : Statement (.pack32uCo a b c) :=
  of3OP _ _ a b c (by decide)
theorem and (a b c : Reg) : Statement (.and a b c) :=
  of3OP _ _ a b c (by decide)
theorem or (a b c : Reg) : Statement (.or a b c) :=
  of3OP _ _ a b c (by decide)
theorem xor (a b c : Reg) : Statement (.xor a b c) :=
  of3OP _ _ a b c (by decide)
theorem nand (a b c : Reg) : Statement (.nand a b c) :=
  of3OP _ _ a b c (by decide)
theorem nor (a b c : Reg) : Statement (.nor a b c) :=
  of3OP _ _ a b c (by decide)
theorem xnor (a b c : Reg) : Statement (.xnor a b c) :=
  of3OP _ _ a b c (by decide)
theorem mpq (a b c : Reg) : Statement (.mpq a b c) :=
  of3OP _ _ a b c (by decide)
theorem lpq (a b c : Reg) : Statement (.lpq a b c) :=
  of3OP _ _ a b c (by decide)
theorem cpq (a b c : Reg) : Statement (.cpq a b c) :=
  of3OP _ _ a b c (by decide)
theorem bpq (a b c : Reg) : Statement (.bpq a b c) :=
  of3OP _ _ a b c (by decide)
theorem sal (a b c : Reg) : Statement (.sal a b c) :=
  of3OP _ _ a b c (by decide)
theorem sar (a b c : Reg) : Statement (.sar a b c) :=
  of3OP _ _ a b c (by decide)
theorem sl0 (a b c : Reg) : Statement (.sl0 a b c) :=
  of3OP _ _ a b c (by decide)
theorem sr0 (a b c : Reg) : Statement (.sr0 a b c) :=
  of3OP _ _ a b c (by decide)
theorem sl1 (a b c : Reg) : Statement (.sl1 a b c) :=
  of3OP _ _ a b c (by decide)
theorem sr1 (a b c : Reg) : Statement (.sr1 a b c) :=
  of3OP _ _ a b c (by decide)
theorem rol (a b c : Reg) : Statement (.rol a b c) :=
  of3OP _ _ a b c (by decide)
theorem ror (a b c : Reg) : Statement (.ror a b c) :=
  of3OP _ _ a b c (by decide)
theorem loadx (a b c : Reg) : Statement (.loadx a b c) :=
  of3OP _ _ a b c (by decide)
theorem loadx8 (a b c : Reg) : Statement (.loadx8 a b c) :=
  of3OP _ _ a b c (by decide)
theorem loadxu8 (a b c : Reg) : Statement (.loadxu8 a b c) :=
  of3OP _ _ a b c (by decide)
theorem loadx16 (a b c : Reg) : Statement (.loadx16 a b c) :=
  of3OP _ _ a b c (by decide)
theorem loadxu16 (a b c : Reg) : Statement (.loadxu16 a b c) :=
  of3OP _ _ a b c (by decide)
theorem loadx32 (a b c : Reg) : Statement (.loadx32 a b c) :=
  of3OP _ _ a b c (by decide)
theorem loadxu32 (a b c : Reg) : Statement (.loadxu32 a b c) :=
  of3OP _ _ a b c (by decide)
theorem storex (a b c : Reg) : Statement (.storex a b c) :=
  of3OP _ _ a b c (by decide)
theorem storex8 (a b c : Reg) : Statement (.storex8 a b c) :=
  of3OP _ _ a b c (by decide)
theorem storex16 (a b c : Reg) : Statement (.storex16 a b c) :=
  of3OP _ _ a b c (by decide)
theorem storex32 (a b c : Reg) : Statement (.storex32 a b c) :=
  of3OP _ _ a b c (by decide)
theorem cmpjumpG (a b c : Reg) : Statement (.cmpjumpG a b c) :=
  of3OP _ _ a b c (by decide)
theorem cmpjumpGe (a b c : Reg) : Statement (.cmpjumpGe a b c) :=
  of3OP _ _ a b c (by decide)
theorem cmpjumpE (a b c : Reg) : Statement (.cmpjumpE a b c) :=
  of3OP _ _ a b c (by decide)
theorem cmpjumpNe (a b c : Reg) : Statement (.cmpjumpNe a b c) :=
  of3OP _ _ a b c (by decide)
theorem cmpjumpLe (a b c : Reg) : Statement (.cmpjumpLe a b c) :=
  of3OP _ _ a b c (by decide)
theorem cmpjumpL (a b c : Reg) : Statement (.cmpjumpL a b c) :=
  of3OP _ _ a b c (by decide)
theorem cmpjumpuG (a b c : Reg) : Statement (.cmpjumpuG a b c) :=
  of3OP _ _ a b c (by decide)
theorem cmpjumpuGe (a b c : Reg) : Statement (.cmpjumpuGe a b c) :=
  of3OP _ _ a b c (by decide)
theorem cmpjumpuLe (a b c : Reg) : Statement (.cmpjumpuLe a b c) :=
  of3OP _ _ a b c (by decide)
theorem cmpjumpuL (a b c : Reg) : Statement (.cmpjumpuL a b c) :=
  of3OP _ _ a b c (by decide)
theorem neg (a b : Reg) : Statement (.neg a b) :=
  of2OP _ _ a b (by decide)
theorem abs (a b : Reg) : Statement (.abs a b) :=
  of2OP _ _ a b (by decide)
theorem nabs (a b : Reg) : Statement (.nabs a b) :=
  of2OP _ _ a b (by decide)
theorem swap (a b : Reg) : Statement (.swap a b) :=
  of2OP _ _ a b (by decide)
theorem copy (a b : Reg) : Statement (.copy a b) :=
  of2OP _ _ a b (by decide)
theorem move (a b : Reg) : Statement (.move a b) :=
  of2OP _ _ a b (by decide)
theorem not (a b : Reg) : Statement (.not a b) :=
  of2OP _ _ a b (by decide)
theorem branch (a b : Reg) : Statement (.branch a b) :=
  of2OP _ _ a b (by decide)
theorem call (a b : Reg) : Statement (.call a b) :=
  of2OP _ _ a b (by decide)
theorem pushr (a b : Reg) : Statement (.pushr a b) :=
  of2OP _ _ a b (by decide)
theorem push8 (a b : Reg) : Statement (.push8 a b) :=
  of2OP _ _ a b (by decide)
theorem push16 (a b : Reg) : Statement (.push16 a b) :=
  of2OP _ _ a b (by decide)
theorem push32 (a b : Reg) : Statement (.push32 a b) :=
  of2OP _ _ a b (by decide)
theorem popr (a b : Reg) : Statement (.popr a b) :=
  of2OP _ _ a b (by decide)
theorem pop8 (a b : Reg) : Statement (.pop8 a b) :=
  of2OP _ _ a b (by decide)
theorem popu8 (a b : Reg) : Statement (.popu8 a b) :=
  of2OP _ _ a b (by decide)
theorem pop16 (a b : Reg) : Statement (.pop16 a b) :=
  of2OP _ _ a b (by decide)
theorem popu16 (a b : Reg) : Statement (.popu16 a b) :=
  of2OP _ _ a b (by decide)
theorem pop32 (a b : Reg) : Statement (.pop32 a b) :=
  of2OP _ _ a b (by decide)
theorem popu32 (a b : Reg) : Statement (.popu32 a b) :=
  of2OP _ _ a b (by decide)
theorem cmpskipG (a b : Reg) : Statement (.cmpskipG a b) :=
  of2OP _ _ a b (by decide)
theorem cmpskipGe (a b : Reg) : Statement (.cmpskipGe a b) :=
  of2OP _ _ a b (by decide)
theorem cmpskipE (a b : Reg) : Statement (.cmpskipE a b) :=
  of2OP _ _ a b (by decide)
theorem cmpskipNe (a b : Reg) : Statement (.cmpskipNe a b) :=
  of2OP _ _ a b (by decide)
theorem cmpskipLe (a b : Reg) : Statement (.cmpskipLe a b) :=
  of2OP _ _ a b (by decide)
theorem cmpskipL (a b : Reg) : Statement (.cmpskipL a b) :=
  of2OP _ _ a b (by decide)
theorem cmpskipuG (a b : Reg) : Statement (.cmpskipuG a b) :=
  of2OP _ _ a b (by decide)
theorem cmpskipuGe (a b : Reg) : Statement (.cmpskipuGe a b) :=
  of2OP _ _ a b (by decide)
theorem cmpskipuLe (a b : Reg) : Statement (.cmpskipuLe a b) :=
  of2OP _ _ a b (by decide)
theorem cmpskipuL (a b : Reg) : Statement (.cmpskipuL a b) :=
  of2OP _ _ a b (by decide)
theorem readpc (a : Reg) : Statement (.readpc a) :=
  of1OP _ _ a (by decide)
theorem readscid (a : Reg) : Statement (.readscid a) :=
  of1OP _ _ a (by decide)
theorem setFalse (a : Reg) : Statement (.setFalse a) :=
  of1OP _ _ a (by decide)
theorem setTrue (a : Reg) : Statement (.setTrue a) :=
  of1OP _ _ a (by decide)
theorem jsrCoroutine (a : Reg) : Statement (.jsrCoroutine a) :=
  of1OP _ _ a (by decide)
theorem ret (a : Reg) : Statement (.ret a) :=
  of1OP _ _ a (by decide)
theorem pushpc (a : Reg) : Statement (.pushpc a) :=
  of1OP _ _ a (by decide)
theorem poppc (a : Reg) : Statement (.poppc a) :=
  of1OP _ _ a (by decide)
theorem addi (a b : Reg) (imm : Imm16) : Statement (.addi a b imm) :=
  of2OPI _ _ a b imm (by decide)
theorem addui (a b : Reg) (imm : Imm16) : Statement (.addui a b imm) :=
  of2OPI _ _ a b imm (by decide)
theorem subi (a b : Reg) (imm : Imm16) : Statement (.subi a b imm) :=
  of2OPI _ _ a b imm (by decide)
theorem subui (a b : Reg) (imm : Imm16) : Statement (.subui a b imm) :=
  of2OPI _ _ a b imm (by decide)
theorem cmpi (a b : Reg) (imm : Imm16) : Statement (.cmpi a b imm) :=
  of2OPI _ _ a b imm (by decide)
theorem load (a b : Reg) (imm : Imm16) : Statement (.load a b imm) :=
  of2OPI _ _ a b imm (by decide)
theorem load8 (a b : Reg) (imm : Imm16) : Statement (.load8 a b imm) :=
  of2OPI _ _ a b imm (by decide)
theorem loadu8 (a b : Reg) (imm : Imm16) : Statement (.loadu8 a b imm) :=
  of2OPI _ _ a b imm (by decide)
theorem load16 (a b : Reg) (imm : Imm16) : Statement (.load16 a b imm) :=
  of2OPI _ _ a b imm (by decide)
theorem loadu16 (a b : Reg) (imm : Imm16) : Statement (.loadu16 a b imm) :=
  of2OPI _ _ a b imm (by decide)
theorem load32 (a b : Reg) (imm : Imm16) : Statement (.load32 a b imm) :=
  of2OPI _ _ a b imm (by decide)
theorem loadu32 (a b : Reg) (imm : Imm16) : Statement (.loadu32 a b imm) :=
  of2OPI _ _ a b imm (by decide)
theorem cmpui (a b : Reg) (imm : Imm16) : Statement (.cmpui a b imm) :=
  of2OPI _ _ a b imm (by decide)
theorem store (a b : Reg) (imm : Imm16) : Statement (.store a b imm) :=
  of2OPI _ _ a b imm (by decide)
theorem store8 (a b : Reg) (imm : Imm16) : Statement (.store8 a b imm) :=
  of2OPI _ _ a b imm (by decide)
theorem store16 (a b : Reg) (imm : Imm16) : Statement (.store16 a b imm) :=
  of2OPI _ _ a b imm (by decide)
theorem store32 (a b : Reg) (imm : Imm16) : Statement (.store32 a b imm) :=
  of2OPI _ _ a b imm (by decide)
theorem jumpC (a : Reg) (imm : Imm16) : Statement (.jumpC a imm) :=
  of1OPI _ _ _ a imm (by decide)
theorem jumpB (a : Reg) (imm : Imm16) : Statement (.jumpB a imm) :=
  of1OPI _ _ _ a imm (by decide)
theorem jumpO (a : Reg) (imm : Imm16) : Statement (.jumpO a imm) :=
  of1OPI _ _ _ a imm (by decide)
theorem jumpG (a : Reg) (imm : Imm16) : Statement (.jumpG a imm) :=
  of1OPI _ _ _ a imm (by decide)
theorem jumpGe (a : Reg) (imm : Imm16) : Statement (.jumpGe a imm) :=
  of1OPI _ _ _ a imm (by decide)
theorem jumpE (a : Reg) (imm : Imm16) : Statement (.jumpE a imm) :=
  of1OPI _ _ _ a imm (by decide)
theorem jumpNe (a : Reg) (imm : Imm16) : Statement (.jumpNe a imm) :=
  of1OPI _ _ _ a imm (by decide)
theorem jumpLe (a : Reg) (imm : Imm16) : Statement (.jumpLe a imm) :=
  of1OPI _ _ _ a imm (by decide)
theorem jumpL (a : Reg) (imm : Imm16) : Statement (.jumpL a imm) :=
  of1OPI _ _ _ a imm (by decide)
theorem jumpZ (a : Reg) (imm : Imm16) : Statement (.jumpZ a imm) :=
  of1OPI _ _ _ a imm (by decide)
theorem jumpNz (a : Reg) (imm : Imm16) : Statement (.jumpNz a imm) :=
  of1OPI _ _ _ a imm (by decide)
theorem jumpP (a : Reg) (imm : Imm16) : Statement (.jumpP a imm) :=
  of1OPI _ _ _ a imm (by decide)
theorem jumpNp (a : Reg) (imm : Imm16) : Statement (.jumpNp a imm) :=
  of1OPI _ _ _ a imm (by decide)
theorem calli (a : Reg) (imm : Imm16) : Statement (.calli a imm) :=
  of1OPI _ _ _ a imm (by decide)
theorem loadi (a : Reg) (imm : Imm16) : Statement (.loadi a imm) :=
  of1OPI _ _ _ a imm (by decide)
theorem loadui (a : Reg) (imm : Imm16) : Statement (.loadui a imm) :=
  of1OPI _ _ _ a imm (by decide)
theorem sali (a : Reg) (imm : Imm16) : Statement (.sali a imm) :=
  of1OPI _ _ _ a imm (by decide)
theorem sari (a : Reg) (imm : Imm16) : Statement (.sari a imm) :=
  of1OPI _ _ _ a imm (by decide)
theorem sl0i (a : Reg) (imm : Imm16) : Statement (.sl0i a imm) :=
  of1OPI _ _ _ a imm (by decide)
theorem sr0i (a : Reg) (imm : Imm16) : Statement (.sr0i a imm) :=
  of1OPI _ _ _ a imm (by decide)
theorem sl1i (a : Reg) (imm : Imm16) : Statement (.sl1i a imm) :=
  of1OPI _ _ _ a imm (by decide)
theorem sr1i (a : Reg) (imm : Imm16) : Statement (.sr1i a imm) :=
  of1OPI _ _ _ a imm (by decide)
theorem loadr (a : Reg) (imm : Imm16) : Statement (.loadr a imm) :=
  of1OPI _ _ _ a imm (by decide)
theorem loadr8 (a : Reg) (imm : Imm16) : Statement (.loadr8 a imm) :=
  of1OPI _ _ _ a imm (by decide)
theorem loadru8 (a : Reg) (imm : Imm16) : Statement (.loadru8 a imm) :=
  of1OPI _ _ _ a imm (by decide)
theorem loadr16 (a : Reg) (imm : Imm16) : Statement (.loadr16 a imm) :=
  of1OPI _ _ _ a imm (by decide)
theorem loadru16 (a : Reg) (imm : Imm16) : Statement (.loadru16 a imm) :=
  of1OPI _ _ _ a imm (by decide)
theorem loadr32 (a : Reg) (imm : Imm16) : Statement (.loadr32 a imm) :=
  of1OPI _ _ _ a imm (by decide)
theorem loadru32 (a : Reg) (imm : Imm16) : Statement (.loadru32 a imm) :=
  of1OPI _ _ _ a imm (by decide)
theorem storer (a : Reg) (imm : Imm16) : Statement (.storer a imm) :=
  of1OPI _ _ _ a imm (by decide)
theorem storer8 (a : Reg) (imm : Imm16) : Statement (.storer8 a imm) :=
  of1OPI _ _ _ a imm (by decide)
theorem storer16 (a : Reg) (imm : Imm16) : Statement (.storer16 a imm) :=
  of1OPI _ _ _ a imm (by decide)
theorem storer32 (a : Reg) (imm : Imm16) : Statement (.storer32 a imm) :=
  of1OPI _ _ _ a imm (by decide)
theorem jump (imm : Imm16) : Statement (.jump imm) :=
  matchesRow_high (lo := 16) (by decide) (by rw [encode, word0OPI, BitVec.toNat_ofNat]; omega)
theorem fopenRead : Statement .fopenRead := by
  unfold Statement
  decide
theorem fopenWrite : Statement .fopenWrite := by
  unfold Statement
  decide
theorem fclose : Statement .fclose := by
  unfold Statement
  decide
theorem rewind : Statement .rewind := by
  unfold Statement
  decide
theorem fseek : Statement .fseek := by
  unfold Statement
  decide
theorem fgetc : Statement .fgetc := by
  unfold Statement
  decide
theorem fputc : Statement .fputc := by
  unfold Statement
  decide
theorem cmpskipiG (a : Reg) (imm : Imm16) : Statement (.cmpskipiG a imm) :=
  of1OPI _ _ _ a imm (by decide)
theorem cmpskipiGe (a : Reg) (imm : Imm16) : Statement (.cmpskipiGe a imm) :=
  of1OPI _ _ _ a imm (by decide)
theorem cmpskipiE (a : Reg) (imm : Imm16) : Statement (.cmpskipiE a imm) :=
  of1OPI _ _ _ a imm (by decide)
theorem cmpskipiNe (a : Reg) (imm : Imm16) : Statement (.cmpskipiNe a imm) :=
  of1OPI _ _ _ a imm (by decide)
theorem cmpskipiLe (a : Reg) (imm : Imm16) : Statement (.cmpskipiLe a imm) :=
  of1OPI _ _ _ a imm (by decide)
theorem cmpskipiL (a : Reg) (imm : Imm16) : Statement (.cmpskipiL a imm) :=
  of1OPI _ _ _ a imm (by decide)
theorem cmpskipuiG (a : Reg) (imm : Imm16) : Statement (.cmpskipuiG a imm) :=
  of1OPI _ _ _ a imm (by decide)
theorem cmpskipuiGe (a : Reg) (imm : Imm16) : Statement (.cmpskipuiGe a imm) :=
  of1OPI _ _ _ a imm (by decide)
theorem cmpskipuiLe (a : Reg) (imm : Imm16) : Statement (.cmpskipuiLe a imm) :=
  of1OPI _ _ _ a imm (by decide)
theorem cmpskipuiL (a : Reg) (imm : Imm16) : Statement (.cmpskipuiL a imm) :=
  of1OPI _ _ _ a imm (by decide)
theorem andi (a b : Reg) (imm : Imm16) : Statement (.andi a b imm) :=
  of2OPI _ _ a b imm (by decide)
theorem ori (a b : Reg) (imm : Imm16) : Statement (.ori a b imm) :=
  of2OPI _ _ a b imm (by decide)
theorem xori (a b : Reg) (imm : Imm16) : Statement (.xori a b imm) :=
  of2OPI _ _ a b imm (by decide)
theorem nandi (a b : Reg) (imm : Imm16) : Statement (.nandi a b imm) :=
  of2OPI _ _ a b imm (by decide)
theorem nori (a b : Reg) (imm : Imm16) : Statement (.nori a b imm) :=
  of2OPI _ _ a b imm (by decide)
theorem xnori (a b : Reg) (imm : Imm16) : Statement (.xnori a b imm) :=
  of2OPI _ _ a b imm (by decide)
theorem cmpjumpiG (a b : Reg) (imm : Imm16) : Statement (.cmpjumpiG a b imm) :=
  of2OPI _ _ a b imm (by decide)
theorem cmpjumpiGe (a b : Reg) (imm : Imm16) : Statement (.cmpjumpiGe a b imm) :=
  of2OPI _ _ a b imm (by decide)
theorem cmpjumpiE (a b : Reg) (imm : Imm16) : Statement (.cmpjumpiE a b imm) :=
  of2OPI _ _ a b imm (by decide)
theorem cmpjumpiNe (a b : Reg) (imm : Imm16) : Statement (.cmpjumpiNe a b imm) :=
  of2OPI _ _ a b imm (by decide)
theorem cmpjumpiLe (a b : Reg) (imm : Imm16) : Statement (.cmpjumpiLe a b imm) :=
  of2OPI _ _ a b imm (by decide)
theorem cmpjumpiL (a b : Reg) (imm : Imm16) : Statement (.cmpjumpiL a b imm) :=
  of2OPI _ _ a b imm (by decide)
theorem cmpjumpuiG (a b : Reg) (imm : Imm16) : Statement (.cmpjumpuiG a b imm) :=
  of2OPI _ _ a b imm (by decide)
theorem cmpjumpuiGe (a b : Reg) (imm : Imm16) : Statement (.cmpjumpuiGe a b imm) :=
  of2OPI _ _ a b imm (by decide)
theorem cmpjumpuiLe (a b : Reg) (imm : Imm16) : Statement (.cmpjumpuiLe a b imm) :=
  of2OPI _ _ a b imm (by decide)
theorem cmpjumpuiL (a b : Reg) (imm : Imm16) : Statement (.cmpjumpuiL a b imm) :=
  of2OPI _ _ a b imm (by decide)

end Sys2Proof.Laws.TableRow
end

