-- ==== Sys2Proof/Laws/Step.lean ====
section
/-!
SUPPORT. Laws.Step: everything the fetch and a step can do, said once (70_reset_and_hazards.md R546). A later proof
cites these and does not unfold the step.
-/

namespace Sys2Proof.Machine

variable {n : Xlen}

/-- The fetch gives an instruction: the four bytes fit in memory and decode to it. -/
theorem fetchDecode_ok {s : Mach n} {i : Instr} :
    s.fetchDecode = .ok i ↔ s.pc.toNat + 4 ≤ s.mem.size ∧ decode s.fetchWord = .ok i := by
  unfold Mach.fetchDecode
  by_cases h : s.pc.toNat + 4 ≤ s.mem.size
  · rw [if_pos (inRange_iff.mpr h)]
    cases decode s.fetchWord <;> simp [h]
  · rw [if_neg (fun c => h (inRange_iff.mp c))]
    simp [h]

/-- The fetch gives a fault: of the fetch itself, or else of decoding (60_exceptions.md R514). -/
theorem fetchDecode_error {s : Mach n} {f : Fault} :
    s.fetchDecode = .error f ↔
      (s.mem.size < s.pc.toNat + 4 ∧ f = .memoryOutOfRange s.pc.toNat 4) ∨
      (s.pc.toNat + 4 ≤ s.mem.size ∧ ∃ e, decode s.fetchWord = .error e ∧ f = decodeFault s.fetchWord e) := by
  unfold Mach.fetchDecode
  by_cases h : s.pc.toNat + 4 ≤ s.mem.size
  · rw [if_pos (inRange_iff.mpr h)]
    cases decode s.fetchWord <;> simp [h, eq_comm]
  · rw [if_neg (fun c => h (inRange_iff.mp c))]
    simp [h, not_le.mp h, eq_comm]

/-- A step to a next state: a final state stays; a running one applies the instruction it fetched to itself with pc
moved on, or takes the fault of the fetch at pc. -/
theorem step_next {s t : State} :
    step s = .next t ↔
      (s.mach.status ≠ .running ∧ t = s) ∨
      (s.mach.status = .running ∧ ∃ i, s.mach.fetchDecode = .ok i ∧ exec i s.mach.advance.toState = .next t) ∨
      (s.mach.status = .running ∧ ∃ f, s.mach.fetchDecode = .error f ∧ t = (s.mach.takeFault s.mach.pc f).toState) := by
  unfold step
  split <;> rename_i h
  · split <;> rename_i hf <;> simp [h, hf, eq_comm]
  · simp [h, eq_comm]
  · simp [h, eq_comm]

end Sys2Proof.Machine
end

