-- ==== Sys2Proof/Tests/Slice0.lean ====
section
/-!
SUPPORT. Slice0: tests of the model. The expected words and results are the spec's: the encodings of its section files
and the vectors of 95_test_vectors.md. The last part shows, for each obligation with hypotheses, a state and operands
that meet them.
-/

section

open Sys2Proof Sys2Proof.Machine

/-- The 64-bit width of the vectors V64. -/
abbrev Tests.wide : Xlen := { doublings := 1 }

/-- A machine of some width after reset, with pc, registers and bytes of memory given. -/
def Tests.givenAt (n : Xlen) (pc : Word n) (regs : List (Reg × Word n)) (bytes : List (Nat × Byte)) : Mach n :=
  { regs.foldl (fun s p => s.setReg p.1 p.2)
      (Mach.boot { RunInputs.default with resetRegs := Vector.replicate 16 0, resetPc := pc }) with
    mem := bytes.foldl (fun m p => m.put p.1 p.2) State.reset.mach.mem }

/-- `givenAt` with the default width. -/
def Tests.given (pc : Word Config.resetXlen) (regs : List (Reg × Word Config.resetXlen))
    (bytes : List (Nat × Byte) := []) : Mach Config.resetXlen :=
  Tests.givenAt Config.resetXlen pc regs bytes

/-- `givenAt` with 64 bits. -/
def Tests.given64 (pc : Word Tests.wide) (regs : List (Reg × Word Tests.wide)) (bytes : List (Nat × Byte) := []) :
    Mach Tests.wide :=
  Tests.givenAt Tests.wide pc regs bytes

/-- What an instruction answers on a machine. -/
def Tests.run {n : Xlen} (i : Instr) (s : Mach n) : Result :=
  exec i s.toState

/-- A next state with a property. -/
def Tests.meets (r : Result) (p : State → Bool) : Bool :=
  match r with
  | .next t => p t
  | _ => false

/-- A running next state with pc, registers and bytes of memory as listed. -/
def Tests.gives (r : Result) (pc : Nat) (regs : List (Reg × Nat)) (bytes : List (Nat × Byte) := []) : Bool :=
  Tests.meets r fun t =>
    t.mach.pc.toNat == pc && t.mach.status == .running && regs.all (fun p => (t.mach.reg p.1).toNat == p.2) &&
      bytes.all (fun p => t.mach.mem.get p.1 == p.2)

/-- A refusal. -/
def Tests.refuses (r : Result) (x : Refusal) : Bool :=
  match r with
  | .refused y => y == x
  | _ => false

theorem Tests.eq_next {r : Result} {t : State} (h : Tests.meets r (· == t) = true) : r = .next t := by
  cases r <;> simp_all [Tests.meets]

theorem Tests.eq_refused {r : Result} {x : Refusal} (h : Tests.refuses r x = true) : r = .refused x := by
  cases r <;> simp_all [Tests.refuses]

open Tests

/-! ### Decoding: each instruction's word, with operand registers 10, 11, 12, 13 and the immediate 0x8123 -/

/-- Words written out from the encodings of 40_nop_halt.md. -/
theorem test_decode_nop_halt :
    decode 0x00A1B2C3 = .ok (.nop 0xA1B2C3) ∧
    decode 0xFFA1B2C3 = .ok (.halt 0xA1B2C3) := by
  decide

/-- Words written out from the encodings of 41_4op_integer.md (1). -/
theorem test_decode_four_operand_1 :
    decode 0x0100ABCD = .ok (.addCi 10 11 12 13) ∧
    decode 0x0101ABCD = .ok (.addCo 10 11 12 13) ∧
    decode 0x0102ABCD = .ok (.addCio 10 11 12 13) ∧
    decode 0x0103ABCD = .ok (.adduCi 10 11 12 13) ∧
    decode 0x0104ABCD = .ok (.adduCo 10 11 12 13) ∧
    decode 0x0105ABCD = .ok (.adduCio 10 11 12 13) ∧
    decode 0x0106ABCD = .ok (.subBi 10 11 12 13) ∧
    decode 0x0107ABCD = .ok (.subBo 10 11 12 13) ∧
    decode 0x0108ABCD = .ok (.subBio 10 11 12 13) ∧
    decode 0x0109ABCD = .ok (.subuBi 10 11 12 13) ∧
    decode 0x010AABCD = .ok (.subuBo 10 11 12 13) ∧
    decode 0x010BABCD = .ok (.subuBio 10 11 12 13) ∧
    decode 0x010CABCD = .ok (.multiply 10 11 12 13) ∧
    decode 0x010DABCD = .ok (.multiplyu 10 11 12 13) ∧
    decode 0x010EABCD = .ok (.divide 10 11 12 13) ∧
    decode 0x010FABCD = .ok (.divideu 10 11 12 13) := by
  decide

/-- Words written out from the encodings of 41_4op_integer.md (2). -/
theorem test_decode_four_operand_2 :
    decode 0x0110ABCD = .ok (.mux 10 11 12 13) ∧
    decode 0x0111ABCD = .ok (.nmux 10 11 12 13) ∧
    decode 0x0112ABCD = .ok (.sort 10 11 12 13) ∧
    decode 0x0113ABCD = .ok (.sortu 10 11 12 13) := by
  decide

/-- Words written out from the encodings of 42_3op_integer_alu.md (1). -/
theorem test_decode_three_operand_alu_1 :
    decode 0x05000ABC = .ok (.add 10 11 12) ∧
    decode 0x05001ABC = .ok (.addu 10 11 12) ∧
    decode 0x05002ABC = .ok (.sub 10 11 12) ∧
    decode 0x05003ABC = .ok (.subu 10 11 12) ∧
    decode 0x05004ABC = .ok (.cmp 10 11 12) ∧
    decode 0x05005ABC = .ok (.cmpu 10 11 12) ∧
    decode 0x05006ABC = .ok (.mul 10 11 12) ∧
    decode 0x05007ABC = .ok (.mulh 10 11 12) ∧
    decode 0x05008ABC = .ok (.mulu 10 11 12) ∧
    decode 0x05009ABC = .ok (.muluh 10 11 12) ∧
    decode 0x0500AABC = .ok (.div 10 11 12) ∧
    decode 0x0500BABC = .ok (.mod 10 11 12) ∧
    decode 0x0500CABC = .ok (.divu 10 11 12) ∧
    decode 0x0500DABC = .ok (.modu 10 11 12) ∧
    decode 0x05010ABC = .ok (.max 10 11 12) ∧
    decode 0x05011ABC = .ok (.maxu 10 11 12) := by
  decide

/-- Words written out from the encodings of 42_3op_integer_alu.md (2). -/
theorem test_decode_three_operand_alu_2 :
    decode 0x05012ABC = .ok (.min 10 11 12) ∧
    decode 0x05013ABC = .ok (.minu 10 11 12) ∧
    decode 0x05014ABC = .ok (.pack 10 11 12) ∧
    decode 0x05015ABC = .ok (.unpack 10 11 12) ∧
    decode 0x05016ABC = .ok (.pack8Co 10 11 12) ∧
    decode 0x05017ABC = .ok (.pack8uCo 10 11 12) ∧
    decode 0x05018ABC = .ok (.pack16Co 10 11 12) ∧
    decode 0x05019ABC = .ok (.pack16uCo 10 11 12) ∧
    decode 0x0501AABC = .ok (.pack32Co 10 11 12) ∧
    decode 0x0501BABC = .ok (.pack32uCo 10 11 12) ∧
    decode 0x05020ABC = .ok (.and 10 11 12) ∧
    decode 0x05021ABC = .ok (.or 10 11 12) ∧
    decode 0x05022ABC = .ok (.xor 10 11 12) ∧
    decode 0x05023ABC = .ok (.nand 10 11 12) ∧
    decode 0x05024ABC = .ok (.nor 10 11 12) ∧
    decode 0x05025ABC = .ok (.xnor 10 11 12) := by
  decide

/-- Words written out from the encodings of 42_3op_integer_alu.md (3). -/
theorem test_decode_three_operand_alu_3 :
    decode 0x05026ABC = .ok (.mpq 10 11 12) ∧
    decode 0x05027ABC = .ok (.lpq 10 11 12) ∧
    decode 0x05028ABC = .ok (.cpq 10 11 12) ∧
    decode 0x05029ABC = .ok (.bpq 10 11 12) ∧
    decode 0x05030ABC = .ok (.sal 10 11 12) ∧
    decode 0x05031ABC = .ok (.sar 10 11 12) ∧
    decode 0x05032ABC = .ok (.sl0 10 11 12) ∧
    decode 0x05033ABC = .ok (.sr0 10 11 12) ∧
    decode 0x05034ABC = .ok (.sl1 10 11 12) ∧
    decode 0x05035ABC = .ok (.sr1 10 11 12) ∧
    decode 0x05036ABC = .ok (.rol 10 11 12) ∧
    decode 0x05037ABC = .ok (.ror 10 11 12) := by
  decide

/-- Words written out from the encodings of 43_3op_integer_mem_jump.md (1). -/
theorem test_decode_three_operand_memory_jump_1 :
    decode 0x05038ABC = .ok (.loadx 10 11 12) ∧
    decode 0x05039ABC = .ok (.loadx8 10 11 12) ∧
    decode 0x0503AABC = .ok (.loadxu8 10 11 12) ∧
    decode 0x0503BABC = .ok (.loadx16 10 11 12) ∧
    decode 0x0503CABC = .ok (.loadxu16 10 11 12) ∧
    decode 0x0503DABC = .ok (.loadx32 10 11 12) ∧
    decode 0x0503EABC = .ok (.loadxu32 10 11 12) ∧
    decode 0x05048ABC = .ok (.storex 10 11 12) ∧
    decode 0x05049ABC = .ok (.storex8 10 11 12) ∧
    decode 0x0504AABC = .ok (.storex16 10 11 12) ∧
    decode 0x0504BABC = .ok (.storex32 10 11 12) ∧
    decode 0x05050ABC = .ok (.cmpjumpG 10 11 12) ∧
    decode 0x05051ABC = .ok (.cmpjumpGe 10 11 12) ∧
    decode 0x05052ABC = .ok (.cmpjumpE 10 11 12) ∧
    decode 0x05053ABC = .ok (.cmpjumpNe 10 11 12) ∧
    decode 0x05054ABC = .ok (.cmpjumpLe 10 11 12) := by
  decide

/-- Words written out from the encodings of 43_3op_integer_mem_jump.md (2). -/
theorem test_decode_three_operand_memory_jump_2 :
    decode 0x05055ABC = .ok (.cmpjumpL 10 11 12) ∧
    decode 0x05060ABC = .ok (.cmpjumpuG 10 11 12) ∧
    decode 0x05061ABC = .ok (.cmpjumpuGe 10 11 12) ∧
    decode 0x05064ABC = .ok (.cmpjumpuLe 10 11 12) ∧
    decode 0x05065ABC = .ok (.cmpjumpuL 10 11 12) := by
  decide

/-- Words written out from the encodings of 44_2op_integer.md (1). -/
theorem test_decode_two_operand_1 :
    decode 0x090000AB = .ok (.neg 10 11) ∧
    decode 0x090001AB = .ok (.abs 10 11) ∧
    decode 0x090002AB = .ok (.nabs 10 11) ∧
    decode 0x090003AB = .ok (.swap 10 11) ∧
    decode 0x090004AB = .ok (.copy 10 11) ∧
    decode 0x090005AB = .ok (.move 10 11) ∧
    decode 0x090006AB = .ok (.not 10 11) ∧
    decode 0x090100AB = .ok (.branch 10 11) ∧
    decode 0x090101AB = .ok (.call 10 11) ∧
    decode 0x090200AB = .ok (.pushr 10 11) ∧
    decode 0x090201AB = .ok (.push8 10 11) ∧
    decode 0x090202AB = .ok (.push16 10 11) ∧
    decode 0x090203AB = .ok (.push32 10 11) ∧
    decode 0x090280AB = .ok (.popr 10 11) ∧
    decode 0x090281AB = .ok (.pop8 10 11) ∧
    decode 0x090282AB = .ok (.popu8 10 11) := by
  decide

/-- Words written out from the encodings of 44_2op_integer.md (2). -/
theorem test_decode_two_operand_2 :
    decode 0x090283AB = .ok (.pop16 10 11) ∧
    decode 0x090284AB = .ok (.popu16 10 11) ∧
    decode 0x090285AB = .ok (.pop32 10 11) ∧
    decode 0x090286AB = .ok (.popu32 10 11) ∧
    decode 0x090300AB = .ok (.cmpskipG 10 11) ∧
    decode 0x090301AB = .ok (.cmpskipGe 10 11) ∧
    decode 0x090302AB = .ok (.cmpskipE 10 11) ∧
    decode 0x090303AB = .ok (.cmpskipNe 10 11) ∧
    decode 0x090304AB = .ok (.cmpskipLe 10 11) ∧
    decode 0x090305AB = .ok (.cmpskipL 10 11) ∧
    decode 0x090380AB = .ok (.cmpskipuG 10 11) ∧
    decode 0x090381AB = .ok (.cmpskipuGe 10 11) ∧
    decode 0x090384AB = .ok (.cmpskipuLe 10 11) ∧
    decode 0x090385AB = .ok (.cmpskipuL 10 11) := by
  decide

/-- Words written out from the encodings of 45_1op.md. -/
theorem test_decode_one_operand :
    decode 0x0D00000A = .ok (.readpc 10) ∧
    decode 0x0D00001A = .ok (.readscid 10) ∧
    decode 0x0D00002A = .ok (.setFalse 10) ∧
    decode 0x0D00003A = .ok (.setTrue 10) ∧
    decode 0x0D01000A = .ok (.jsrCoroutine 10) ∧
    decode 0x0D01001A = .ok (.ret 10) ∧
    decode 0x0D02000A = .ok (.pushpc 10) ∧
    decode 0x0D02001A = .ok (.poppc 10) := by
  decide

/-- Words written out from the encodings of 46_2opi_integer.md (1). -/
theorem test_decode_two_operand_immediate_1 :
    decode 0x0EAB8123 = .ok (.addi 10 11 0x8123) ∧
    decode 0x0FAB8123 = .ok (.addui 10 11 0x8123) ∧
    decode 0x10AB8123 = .ok (.subi 10 11 0x8123) ∧
    decode 0x11AB8123 = .ok (.subui 10 11 0x8123) ∧
    decode 0x12AB8123 = .ok (.cmpi 10 11 0x8123) ∧
    decode 0x13AB8123 = .ok (.load 10 11 0x8123) ∧
    decode 0x14AB8123 = .ok (.load8 10 11 0x8123) ∧
    decode 0x15AB8123 = .ok (.loadu8 10 11 0x8123) ∧
    decode 0x16AB8123 = .ok (.load16 10 11 0x8123) ∧
    decode 0x17AB8123 = .ok (.loadu16 10 11 0x8123) ∧
    decode 0x18AB8123 = .ok (.load32 10 11 0x8123) ∧
    decode 0x19AB8123 = .ok (.loadu32 10 11 0x8123) ∧
    decode 0x1FAB8123 = .ok (.cmpui 10 11 0x8123) ∧
    decode 0x20AB8123 = .ok (.store 10 11 0x8123) ∧
    decode 0x21AB8123 = .ok (.store8 10 11 0x8123) ∧
    decode 0x22AB8123 = .ok (.store16 10 11 0x8123) := by
  decide

/-- Words written out from the encodings of 46_2opi_integer.md (2). -/
theorem test_decode_two_operand_immediate_2 :
    decode 0x23AB8123 = .ok (.store32 10 11 0x8123) := by
  decide

/-- Words written out from the encodings of 47_1opi_0opi.md (1). -/
theorem test_decode_one_operand_immediate_1 :
    decode 0x2C0A8123 = .ok (.jumpC 10 0x8123) ∧
    decode 0x2C1A8123 = .ok (.jumpB 10 0x8123) ∧
    decode 0x2C2A8123 = .ok (.jumpO 10 0x8123) ∧
    decode 0x2C3A8123 = .ok (.jumpG 10 0x8123) ∧
    decode 0x2C4A8123 = .ok (.jumpGe 10 0x8123) ∧
    decode 0x2C5A8123 = .ok (.jumpE 10 0x8123) ∧
    decode 0x2C6A8123 = .ok (.jumpNe 10 0x8123) ∧
    decode 0x2C7A8123 = .ok (.jumpLe 10 0x8123) ∧
    decode 0x2C8A8123 = .ok (.jumpL 10 0x8123) ∧
    decode 0x2C9A8123 = .ok (.jumpZ 10 0x8123) ∧
    decode 0x2CAA8123 = .ok (.jumpNz 10 0x8123) ∧
    decode 0x2CBA8123 = .ok (.jumpP 10 0x8123) ∧
    decode 0x2CCA8123 = .ok (.jumpNp 10 0x8123) ∧
    decode 0x2D0A8123 = .ok (.calli 10 0x8123) ∧
    decode 0x2D1A8123 = .ok (.loadi 10 0x8123) ∧
    decode 0x2D2A8123 = .ok (.loadui 10 0x8123) := by
  decide

/-- Words written out from the encodings of 47_1opi_0opi.md (2). -/
theorem test_decode_one_operand_immediate_2 :
    decode 0x2D3A8123 = .ok (.sali 10 0x8123) ∧
    decode 0x2D4A8123 = .ok (.sari 10 0x8123) ∧
    decode 0x2D5A8123 = .ok (.sl0i 10 0x8123) ∧
    decode 0x2D6A8123 = .ok (.sr0i 10 0x8123) ∧
    decode 0x2D7A8123 = .ok (.sl1i 10 0x8123) ∧
    decode 0x2D8A8123 = .ok (.sr1i 10 0x8123) ∧
    decode 0x2E0A8123 = .ok (.loadr 10 0x8123) ∧
    decode 0x2E1A8123 = .ok (.loadr8 10 0x8123) ∧
    decode 0x2E2A8123 = .ok (.loadru8 10 0x8123) ∧
    decode 0x2E3A8123 = .ok (.loadr16 10 0x8123) ∧
    decode 0x2E4A8123 = .ok (.loadru16 10 0x8123) ∧
    decode 0x2E5A8123 = .ok (.loadr32 10 0x8123) ∧
    decode 0x2E6A8123 = .ok (.loadru32 10 0x8123) ∧
    decode 0x2F0A8123 = .ok (.storer 10 0x8123) ∧
    decode 0x2F1A8123 = .ok (.storer8 10 0x8123) ∧
    decode 0x2F2A8123 = .ok (.storer16 10 0x8123) := by
  decide

/-- Words written out from the encodings of 47_1opi_0opi.md (3). -/
theorem test_decode_one_operand_immediate_3 :
    decode 0x2F3A8123 = .ok (.storer32 10 0x8123) ∧
    decode 0x3C008123 = .ok (.jump 0x8123) := by
  decide

/-- Words written out from the encodings of 48_halcode.md. -/
theorem test_decode_halcode :
    decode 0x42100000 = .ok .fopenRead ∧
    decode 0x42100001 = .ok .fopenWrite ∧
    decode 0x42100002 = .ok .fclose ∧
    decode 0x42100003 = .ok .rewind ∧
    decode 0x42100004 = .ok .fseek ∧
    decode 0x42100100 = .ok .fgetc ∧
    decode 0x42100200 = .ok .fputc := by
  decide

/-- Words written out from the encodings of 49_high_immediate_groups.md (1). -/
theorem test_decode_high_immediate_1 :
    decode 0xA00A8123 = .ok (.cmpskipiG 10 0x8123) ∧
    decode 0xA01A8123 = .ok (.cmpskipiGe 10 0x8123) ∧
    decode 0xA02A8123 = .ok (.cmpskipiE 10 0x8123) ∧
    decode 0xA03A8123 = .ok (.cmpskipiNe 10 0x8123) ∧
    decode 0xA04A8123 = .ok (.cmpskipiLe 10 0x8123) ∧
    decode 0xA05A8123 = .ok (.cmpskipiL 10 0x8123) ∧
    decode 0xA10A8123 = .ok (.cmpskipuiG 10 0x8123) ∧
    decode 0xA11A8123 = .ok (.cmpskipuiGe 10 0x8123) ∧
    decode 0xA14A8123 = .ok (.cmpskipuiLe 10 0x8123) ∧
    decode 0xA15A8123 = .ok (.cmpskipuiL 10 0x8123) ∧
    decode 0xB0AB8123 = .ok (.andi 10 11 0x8123) ∧
    decode 0xB1AB8123 = .ok (.ori 10 11 0x8123) ∧
    decode 0xB2AB8123 = .ok (.xori 10 11 0x8123) ∧
    decode 0xB3AB8123 = .ok (.nandi 10 11 0x8123) ∧
    decode 0xB4AB8123 = .ok (.nori 10 11 0x8123) ∧
    decode 0xB5AB8123 = .ok (.xnori 10 11 0x8123) := by
  decide

/-- Words written out from the encodings of 49_high_immediate_groups.md (2). -/
theorem test_decode_high_immediate_2 :
    decode 0xC0AB8123 = .ok (.cmpjumpiG 10 11 0x8123) ∧
    decode 0xC1AB8123 = .ok (.cmpjumpiGe 10 11 0x8123) ∧
    decode 0xC2AB8123 = .ok (.cmpjumpiE 10 11 0x8123) ∧
    decode 0xC3AB8123 = .ok (.cmpjumpiNe 10 11 0x8123) ∧
    decode 0xC4AB8123 = .ok (.cmpjumpiLe 10 11 0x8123) ∧
    decode 0xC5AB8123 = .ok (.cmpjumpiL 10 11 0x8123) ∧
    decode 0xD0AB8123 = .ok (.cmpjumpuiG 10 11 0x8123) ∧
    decode 0xD1AB8123 = .ok (.cmpjumpuiGe 10 11 0x8123) ∧
    decode 0xD4AB8123 = .ok (.cmpjumpuiLe 10 11 0x8123) ∧
    decode 0xD5AB8123 = .ok (.cmpjumpuiL 10 11 0x8123) := by
  decide

/-! ### One step on a small state, from the test vectors of 95_test_vectors.md -/

/-- 95_test_vectors.md V40.5, V40.3. -/
theorem test_effect_nop_halt :
    gives (run (.nop 0x0) (given 0x10000 [])) 0x10000 [] = true ∧
    meets (run (.halt 0xFFFFFF) (given 0x104 [])) (fun t => t.mach.status == .halted && t.mach.pc.toNat == 0x104) = true := by
  decide

/-- 95_test_vectors.md V41.2, V41.9, V41.10, V41.7, V41.3, V41.6, V41.17, V41.18, V41.19, V41.14, V41.12, V41.16. -/
theorem test_effect_four_operand_1 :
    gives (run (.addCi 0 1 2 3) (given 0x104 [(1, 0x5), (2, 0x7), (3, 0x1F)])) 0x104 [(0, 0xC)] = true ∧
    gives (run (.addCo 0 1 2 3) (given 0x104 [(1, 0xFFFFFFFF), (2, 0x1), (3, 0x20)])) 0x104 [(0, 0x0)] = true ∧
    gives (run (.addCio 0 1 2 3) (given 0x104 [(1, 0x80000000), (2, 0xFFFFFFFF), (3, 0x0)])) 0x104 [(0, 0x7FFFFFFF)] = true ∧
    gives (run (.adduCi 0 1 2 3) (given 0x104 [(1, 0xFFFFFFFF), (2, 0x0), (3, 0x20)])) 0x104 [(0, 0x0)] = true ∧
    gives (run (.adduCo 0 1 2 3) (given 0x104 [(1, 0xFFFFFFFF), (2, 0x1), (3, 0x4)])) 0x104 [(0, 0x0), (3, 0x24)] = true ∧
    gives (run (.adduCio 0 1 2 3) (given 0x104 [(1, 0xFFFFFFFF), (2, 0xFFFFFFFF), (3, 0x20)])) 0x104 [(0, 0xFFFFFFFF), (3, 0x20)] = true ∧
    gives (run (.subBi 0 1 2 3) (given 0x104 [(1, 0x5), (2, 0x7), (3, 0x10)])) 0x104 [(0, 0xFFFFFFFD)] = true ∧
    gives (run (.subBo 0 1 2 3) (given 0x104 [(1, 0x80000000), (2, 0x1), (3, 0x0)])) 0x104 [(0, 0x7FFFFFFF)] = true ∧
    gives (run (.subBio 0 1 2 3) (given 0x104 [(1, 0x0), (2, 0x1), (3, 0x10)])) 0x104 [(0, 0xFFFFFFFE)] = true ∧
    gives (run (.subuBi 0 1 2 3) (given 0x104 [(1, 0x5), (2, 0x1), (3, 0x10)])) 0x104 [(0, 0x3)] = true ∧
    gives (run (.subuBo 0 1 2 3) (given 0x104 [(1, 0x0), (2, 0x1), (3, 0x2)])) 0x104 [(0, 0xFFFFFFFF), (3, 0x12)] = true ∧
    gives (run (.subuBio 0 1 2 3) (given 0x104 [(1, 0x5), (2, 0xFFFFFFFF), (3, 0x10)])) 0x104 [(0, 0x5), (3, 0x10)] = true := by
  decide

/-- 95_test_vectors.md V41.23, V41.22, V41.26, V41.29, V41.32, V41.33, V41.36, V41.35. -/
theorem test_effect_four_operand_2 :
    gives (run (.multiply 2 3 2 3) (given 0x104 [(2, 0x10000), (3, 0x10000)])) 0x104 [(2, 0x0), (3, 0x1)] = true ∧
    gives (run (.multiplyu 0 1 2 3) (given 0x104 [(2, 0xFFFFFFFF), (3, 0xFFFFFFFF)])) 0x104 [(0, 0x1), (1, 0xFFFFFFFE)] = true ∧
    gives (run (.divide 0 1 2 3) (given 0x104 [(2, 0x7), (3, 0xFFFFFFFE)])) 0x104 [(0, 0xFFFFFFFD), (1, 0x1)] = true ∧
    gives (run (.divideu 0 1 2 3) (given 0x104 [(2, 0xFFFFFFF9), (3, 0x2)])) 0x104 [(0, 0x7FFFFFFC), (1, 0x1)] = true ∧
    gives (run (.mux 0 1 2 3) (given 0x104 [(1, 0xFFFF), (2, 0x11111111), (3, 0x22222222)])) 0x104 [(0, 0x11112222)] = true ∧
    gives (run (.nmux 0 1 2 3) (given 0x104 [(1, 0xFFFF), (2, 0x11111111), (3, 0x22222222)])) 0x104 [(0, 0x22221111)] = true ∧
    gives (run (.sort 2 3 2 3) (given 0x104 [(2, 0x1), (3, 0x9)])) 0x104 [(2, 0x9), (3, 0x1)] = true ∧
    gives (run (.sortu 0 1 2 3) (given 0x104 [(2, 0xFFFFFFFF), (3, 0x1)])) 0x104 [(0, 0xFFFFFFFF), (1, 0x1)] = true := by
  decide

/-- 95_test_vectors.md V42.1, V42.2, V42.4, V42.5, V42.6, V42.7, V42.11, V42.13, V42.14, V42.15, V42.16, V42.17. -/
theorem test_effect_three_operand_alu_1 :
    gives (run (.add 0 1 2) (given 0x104 [(1, 0x7FFFFFFF), (2, 0x1)])) 0x104 [(0, 0x80000000)] = true ∧
    gives (run (.addu 0 1 2) (given 0x104 [(1, 0xFFFFFFFF), (2, 0x2)])) 0x104 [(0, 0x1)] = true ∧
    gives (run (.sub 0 1 2) (given 0x104 [(1, 0x0), (2, 0x1)])) 0x104 [(0, 0xFFFFFFFF)] = true ∧
    gives (run (.subu 0 1 2) (given 0x104 [(1, 0x80000000), (2, 0x1)])) 0x104 [(0, 0x7FFFFFFF)] = true ∧
    gives (run (.cmp 0 1 2) (given 0x104 [(0, 0x20), (1, 0xFFFFFFFF), (2, 0x1)])) 0x104 [(0, 0x1)] = true ∧
    gives (run (.cmpu 0 1 2) (given 0x104 [(1, 0xFFFFFFFF), (2, 0x1)])) 0x104 [(0, 0x4)] = true ∧
    gives (run (.mul 0 1 2) (given 0x104 [(1, 0x10001), (2, 0x10001)])) 0x104 [(0, 0x20001)] = true ∧
    gives (run (.mulh 0 1 2) (given 0x104 [(1, 0x80000000), (2, 0x2)])) 0x104 [(0, 0xFFFFFFFF)] = true ∧
    gives (run (.mulu 0 1 2) (given 0x104 [(1, 0xFFFFFFFF), (2, 0xFFFFFFFF)])) 0x104 [(0, 0x1)] = true ∧
    gives (run (.muluh 0 1 2) (given 0x104 [(1, 0xFFFFFFFF), (2, 0xFFFFFFFF)])) 0x104 [(0, 0xFFFFFFFE)] = true ∧
    gives (run (.div 0 1 2) (given 0x104 [(1, 0xFFFFFFF9), (2, 0x2)])) 0x104 [(0, 0xFFFFFFFD)] = true ∧
    gives (run (.mod 0 1 2) (given 0x104 [(1, 0xFFFFFFF9), (2, 0x2)])) 0x104 [(0, 0xFFFFFFFF)] = true := by
  decide

/-- 95_test_vectors.md V42.23, V42.24, V42.27, V42.28, V42.29, V42.30, V42.39, V42.40, V42.41, V42.42, V42.43,
V42.44. -/
theorem test_effect_three_operand_alu_2 :
    gives (run (.divu 0 1 2) (given 0x104 [(1, 0xFFFFFFF9), (2, 0x2)])) 0x104 [(0, 0x7FFFFFFC)] = true ∧
    gives (run (.modu 0 1 2) (given 0x104 [(1, 0xFFFFFFF9), (2, 0x2)])) 0x104 [(0, 0x1)] = true ∧
    gives (run (.max 0 1 2) (given 0x104 [(1, 0xFFFFFFFF), (2, 0x1)])) 0x104 [(0, 0x1)] = true ∧
    gives (run (.maxu 0 1 2) (given 0x104 [(1, 0xFFFFFFFF), (2, 0x1)])) 0x104 [(0, 0xFFFFFFFF)] = true ∧
    gives (run (.min 0 1 2) (given 0x104 [(1, 0xFFFFFFFF), (2, 0x1)])) 0x104 [(0, 0xFFFFFFFF)] = true ∧
    gives (run (.minu 0 1 2) (given 0x104 [(1, 0xFFFFFFFF), (2, 0x1)])) 0x104 [(0, 0x1)] = true ∧
    gives (run (.and 0 1 2) (given 0x104 [(1, 0xC), (2, 0xA)])) 0x104 [(0, 0x8)] = true ∧
    gives (run (.or 0 1 2) (given 0x104 [(1, 0xC), (2, 0xA)])) 0x104 [(0, 0xE)] = true ∧
    gives (run (.xor 0 1 2) (given 0x104 [(1, 0xC), (2, 0xA)])) 0x104 [(0, 0x6)] = true ∧
    gives (run (.nand 0 1 2) (given 0x104 [(1, 0xC), (2, 0xA)])) 0x104 [(0, 0xFFFFFFF7)] = true ∧
    gives (run (.nor 0 1 2) (given 0x104 [(1, 0xC), (2, 0xA)])) 0x104 [(0, 0xFFFFFFF1)] = true ∧
    gives (run (.xnor 0 1 2) (given 0x104 [(1, 0xC), (2, 0xA)])) 0x104 [(0, 0xFFFFFFF9)] = true := by
  decide

/-- 95_test_vectors.md V42.45, V42.46, V42.47, V42.48, V42.50, V42.54, V42.56, V42.58, V42.59, V42.61, V42.64,
V42.66. -/
theorem test_effect_three_operand_alu_3 :
    gives (run (.mpq 0 1 2) (given 0x104 [(1, 0xC), (2, 0xA)])) 0x104 [(0, 0x2)] = true ∧
    gives (run (.lpq 0 1 2) (given 0x104 [(1, 0xC), (2, 0xA)])) 0x104 [(0, 0x4)] = true ∧
    gives (run (.cpq 0 1 2) (given 0x104 [(1, 0xC), (2, 0xA)])) 0x104 [(0, 0xFFFFFFFB)] = true ∧
    gives (run (.bpq 0 1 2) (given 0x104 [(1, 0xC), (2, 0xA)])) 0x104 [(0, 0xFFFFFFFD)] = true ∧
    gives (run (.sal 0 1 2) (given 0x104 [(1, 0x40000001), (2, 0x2)])) 0x104 [(0, 0x4)] = true ∧
    gives (run (.sar 0 1 2) (given 0x104 [(1, 0x7FFFFFFF), (2, 0xFFFFFFFF)])) 0x104 [(0, 0x0)] = true ∧
    gives (run (.sl0 0 1 2) (given 0x104 [(1, 0xFF), (2, 0x1C)])) 0x104 [(0, 0xF0000000)] = true ∧
    gives (run (.sr0 0 1 2) (given 0x104 [(1, 0xFFFFFFFF), (2, 0x21)])) 0x104 [(0, 0x0)] = true ∧
    gives (run (.sl1 0 1 2) (given 0x104 [(1, 0x12345678), (2, 0x4)])) 0x104 [(0, 0x2345678F)] = true ∧
    gives (run (.sr1 0 1 2) (given 0x104 [(1, 0x12345678), (2, 0x4)])) 0x104 [(0, 0xF1234567)] = true ∧
    gives (run (.rol 0 1 2) (given 0x104 [(1, 0x80000001), (2, 0x24)])) 0x104 [(0, 0x18)] = true ∧
    gives (run (.ror 0 1 2) (given 0x104 [(1, 0x80000001), (2, 0x20)])) 0x104 [(0, 0x80000001)] = true := by
  decide

/-- 95_test_vectors.md V43.1, V43.10, V43.3, V43.4, V43.5, V43.6, V43.7, V43.17, V43.13, V43.14, V43.18, V43.19. -/
theorem test_effect_three_operand_memory_jump_1 :
    gives (run (.loadx 0 1 2) (given 0x104 [(1, 0x1F0), (2, 0x10)] [(0x200, 0x80), (0x201, 0x1), (0x202, 0xFE), (0x203, 0xDC), (0x204, 0xBA), (0x205, 0x98), (0x206, 0x76), (0x207, 0x54)])) 0x104 [(0, 0x8001FEDC)] = true ∧
    gives (run (.loadx8 0 1 2) (given 0x104 [(1, 0xFFF0), (2, 0xF)] [(0xFFFF, 0x7F)])) 0x104 [(0, 0x7F)] = true ∧
    gives (run (.loadxu8 0 1 2) (given 0x104 [(1, 0x1F0), (2, 0x10)] [(0x200, 0x80), (0x201, 0x1), (0x202, 0xFE), (0x203, 0xDC), (0x204, 0xBA), (0x205, 0x98), (0x206, 0x76), (0x207, 0x54)])) 0x104 [(0, 0x80)] = true ∧
    gives (run (.loadx16 0 1 2) (given 0x104 [(1, 0x1F0), (2, 0x12)] [(0x200, 0x80), (0x201, 0x1), (0x202, 0xFE), (0x203, 0xDC), (0x204, 0xBA), (0x205, 0x98), (0x206, 0x76), (0x207, 0x54)])) 0x104 [(0, 0xFFFFFEDC)] = true ∧
    gives (run (.loadxu16 0 1 2) (given 0x104 [(1, 0x1F0), (2, 0x11)] [(0x200, 0x80), (0x201, 0x1), (0x202, 0xFE), (0x203, 0xDC), (0x204, 0xBA), (0x205, 0x98), (0x206, 0x76), (0x207, 0x54)])) 0x104 [(0, 0x1FE)] = true ∧
    gives (run (.loadx32 0 1 2) (given 0x104 [(1, 0x1F0), (2, 0x13)] [(0x200, 0x80), (0x201, 0x1), (0x202, 0xFE), (0x203, 0xDC), (0x204, 0xBA), (0x205, 0x98), (0x206, 0x76), (0x207, 0x54)])) 0x104 [(0, 0xDCBA9876)] = true ∧
    gives (run (.loadxu32 0 1 2) (given 0x104 [(1, 0x1F0), (2, 0x10)] [(0x200, 0x80), (0x201, 0x1), (0x202, 0xFE), (0x203, 0xDC), (0x204, 0xBA), (0x205, 0x98), (0x206, 0x76), (0x207, 0x54)])) 0x104 [(0, 0x8001FEDC)] = true ∧
    gives (run (.storex 0 0 0) (given 0x104 [(0, 0x180)])) 0x104 [] [(0x300, 0x0), (0x301, 0x0), (0x302, 0x1), (0x303, 0x80)] = true ∧
    gives (run (.storex8 0 1 2) (given 0x104 [(0, 0x89ABCDEF), (1, 0x300), (2, 0x4)])) 0x104 [] [(0x304, 0xEF)] = true ∧
    gives (run (.storex16 0 1 2) (given 0x104 [(0, 0x89ABCDEF), (1, 0x300), (2, 0x4)])) 0x104 [] [(0x304, 0xCD), (0x305, 0xEF)] = true ∧
    gives (run (.storex32 0 1 2) (given 0x104 [(0, 0xFFFFFFFF), (1, 0x100), (2, 0x4)])) 0x104 [] [(0x104, 0xFF), (0x105, 0xFF), (0x106, 0xFF), (0x107, 0xFF)] = true ∧
    gives (run (.cmpjumpG 0 1 2) (given 0x104 [(0, 0x5), (1, 0x3), (2, 0x400)])) 0x400 [] = true := by
  decide

/-- 95_test_vectors.md V43.21, V43.30, V43.23, V43.24, V43.25, V43.26, V43.27, V43.28, V43.29. -/
theorem test_effect_three_operand_memory_jump_2 :
    gives (run (.cmpjumpGe 0 1 2) (given 0x104 [(0, 0x3), (1, 0x3), (2, 0x400)])) 0x400 [] = true ∧
    gives (run (.cmpjumpE 2 2 2) (given 0x104 [(2, 0x20000)])) 0x20000 [] = true ∧
    gives (run (.cmpjumpNe 0 1 2) (given 0x104 [(0, 0x3), (1, 0x3), (2, 0x400)])) 0x104 [] = true ∧
    gives (run (.cmpjumpLe 0 1 2) (given 0x104 [(0, 0xFFFFFFFF), (1, 0x0), (2, 0x400)])) 0x400 [] = true ∧
    gives (run (.cmpjumpL 0 1 2) (given 0x104 [(0, 0xFFFFFFFF), (1, 0x0), (2, 0x400)])) 0x400 [] = true ∧
    gives (run (.cmpjumpuG 0 1 2) (given 0x104 [(0, 0xFFFFFFFF), (1, 0x0), (2, 0x400)])) 0x400 [] = true ∧
    gives (run (.cmpjumpuGe 0 1 2) (given 0x104 [(0, 0x0), (1, 0xFFFFFFFF), (2, 0x400)])) 0x104 [] = true ∧
    gives (run (.cmpjumpuLe 0 1 2) (given 0x104 [(0, 0xFFFFFFFF), (1, 0x0), (2, 0x400)])) 0x104 [] = true ∧
    gives (run (.cmpjumpuL 0 1 2) (given 0x104 [(0, 0x0), (1, 0xFFFFFFFF), (2, 0x400)])) 0x400 [] = true := by
  decide

/-- 95_test_vectors.md V44.1, V44.5, V44.6, V44.9, V44.10, V44.11, V44.13, V44.14, V44.16, V44.21, V44.18, V44.19.
-/
theorem test_effect_two_operand_1 :
    gives (run (.neg 0 1) (given 0x104 [(1, 0x5)])) 0x104 [(0, 0xFFFFFFFB)] = true ∧
    gives (run (.abs 0 1) (given 0x104 [(1, 0x80000000)])) 0x104 [(0, 0x80000000)] = true ∧
    gives (run (.nabs 0 1) (given 0x104 [(1, 0x5)])) 0x104 [(0, 0xFFFFFFFB)] = true ∧
    gives (run (.swap 4 4) (given 0x104 [(4, 0x33)])) 0x104 [(4, 0x33)] = true ∧
    gives (run (.copy 0 1) (given 0x104 [(0, 0x11), (1, 0x22)])) 0x104 [(0, 0x22)] = true ∧
    gives (run (.move 0 1) (given 0x104 [(0, 0x11), (1, 0x22)])) 0x104 [(0, 0x22), (1, 0x0)] = true ∧
    gives (run (.not 0 1) (given 0x104 [(1, 0xF0F0F0F)])) 0x104 [(0, 0xF0F0F0F0)] = true ∧
    gives (run (.branch 0 1) (given 0x104 [(0, 0x400), (1, 0x8000)])) 0x400 [] [(0x8000, 0x0), (0x8001, 0x0), (0x8002, 0x1), (0x8003, 0x4)] = true ∧
    gives (run (.call 1 1) (given 0x104 [(1, 0x8000)])) 0x8000 [(1, 0x8004)] [(0x8000, 0x0), (0x8001, 0x0), (0x8002, 0x1), (0x8003, 0x4)] = true ∧
    gives (run (.pushr 1 1) (given 0x104 [(1, 0x8000)])) 0x104 [(1, 0x8004)] [(0x8000, 0x0), (0x8001, 0x0), (0x8002, 0x80), (0x8003, 0x0)] = true ∧
    gives (run (.push8 0 1) (given 0x104 [(0, 0x89ABCDEF), (1, 0x8000)])) 0x104 [(1, 0x8001)] [(0x8000, 0xEF)] = true ∧
    gives (run (.push16 0 1) (given 0x104 [(0, 0x89ABCDEF), (1, 0x8000)])) 0x104 [(1, 0x8002)] [(0x8000, 0xCD), (0x8001, 0xEF)] = true := by
  decide

/-- 95_test_vectors.md V44.20, V44.22, V44.23, V44.24, V44.25, V44.26, V44.27, V44.28, V44.32, V44.34, V44.43,
V44.36. -/
theorem test_effect_two_operand_2 :
    gives (run (.push32 0 1) (given 0x104 [(0, 0x89ABCDEF), (1, 0x8000)])) 0x104 [(1, 0x8004)] [(0x8000, 0x89), (0x8001, 0xAB), (0x8002, 0xCD), (0x8003, 0xEF)] = true ∧
    gives (run (.popr 0 1) (given 0x104 [(1, 0x8000)] [(0x7FFC, 0x89), (0x7FFD, 0xAB), (0x7FFE, 0xCD), (0x7FFF, 0xEF)])) 0x104 [(0, 0x89ABCDEF), (1, 0x7FFC)] [(0x7FFC, 0x0), (0x7FFD, 0x0), (0x7FFE, 0x0), (0x7FFF, 0x0)] = true ∧
    gives (run (.pop8 0 1) (given 0x104 [(1, 0x8000)] [(0x7FFC, 0x89), (0x7FFD, 0xAB), (0x7FFE, 0xCD), (0x7FFF, 0xEF)])) 0x104 [(0, 0xFFFFFFEF), (1, 0x7FFF)] [(0x7FFF, 0x0)] = true ∧
    gives (run (.popu8 0 1) (given 0x104 [(1, 0x8000)] [(0x7FFC, 0x89), (0x7FFD, 0xAB), (0x7FFE, 0xCD), (0x7FFF, 0xEF)])) 0x104 [(0, 0xEF), (1, 0x7FFF)] [(0x7FFF, 0x0)] = true ∧
    gives (run (.pop16 0 1) (given 0x104 [(1, 0x8000)] [(0x7FFC, 0x89), (0x7FFD, 0xAB), (0x7FFE, 0xCD), (0x7FFF, 0xEF)])) 0x104 [(0, 0xFFFFCDEF), (1, 0x7FFE)] [(0x7FFE, 0x0), (0x7FFF, 0x0)] = true ∧
    gives (run (.popu16 0 1) (given 0x104 [(1, 0x8000)] [(0x7FFC, 0x89), (0x7FFD, 0xAB), (0x7FFE, 0xCD), (0x7FFF, 0xEF)])) 0x104 [(0, 0xCDEF), (1, 0x7FFE)] [(0x7FFE, 0x0), (0x7FFF, 0x0)] = true ∧
    gives (run (.pop32 0 1) (given 0x104 [(1, 0x8000)] [(0x7FFC, 0x89), (0x7FFD, 0xAB), (0x7FFE, 0xCD), (0x7FFF, 0xEF)])) 0x104 [(0, 0x89ABCDEF), (1, 0x7FFC)] [(0x7FFC, 0x0), (0x7FFD, 0x0), (0x7FFE, 0x0), (0x7FFF, 0x0)] = true ∧
    gives (run (.popu32 0 1) (given 0x104 [(1, 0x8000)] [(0x7FFC, 0x89), (0x7FFD, 0xAB), (0x7FFE, 0xCD), (0x7FFF, 0xEF)])) 0x104 [(0, 0x89ABCDEF), (1, 0x7FFC)] [(0x7FFC, 0x0), (0x7FFD, 0x0), (0x7FFE, 0x0), (0x7FFF, 0x0)] = true ∧
    gives (run (.cmpskipG 0 1) (given 0x104 [(0, 0x5), (1, 0x3)])) 0x108 [] = true ∧
    gives (run (.cmpskipGe 0 1) (given 0x104 [(0, 0x3), (1, 0x3)])) 0x108 [] = true ∧
    gives (run (.cmpskipE 0 1) (given 0x10000 [(0, 0x0), (1, 0x0)])) 0x10004 [] = true ∧
    gives (run (.cmpskipNe 0 1) (given 0x104 [(0, 0x3), (1, 0x3)])) 0x104 [] = true := by
  decide

/-- 95_test_vectors.md V44.37, V44.38, V44.39, V44.40, V44.41, V44.42. -/
theorem test_effect_two_operand_3 :
    gives (run (.cmpskipLe 0 1) (given 0x104 [(0, 0xFFFFFFFF), (1, 0x0)])) 0x108 [] = true ∧
    gives (run (.cmpskipL 0 1) (given 0x104 [(0, 0x0), (1, 0xFFFFFFFF)])) 0x104 [] = true ∧
    gives (run (.cmpskipuG 0 1) (given 0x104 [(0, 0xFFFFFFFF), (1, 0x0)])) 0x108 [] = true ∧
    gives (run (.cmpskipuGe 0 1) (given 0x104 [(0, 0x0), (1, 0xFFFFFFFF)])) 0x104 [] = true ∧
    gives (run (.cmpskipuLe 0 1) (given 0x104 [(0, 0x0), (1, 0xFFFFFFFF)])) 0x108 [] = true ∧
    gives (run (.cmpskipuL 0 1) (given 0x104 [(0, 0x0), (1, 0xFFFFFFFF)])) 0x108 [] = true := by
  decide

/-- 95_test_vectors.md V45.1, V45.3, V45.4, V45.5, V45.6, V45.7, V45.8. -/
theorem test_effect_one_operand :
    gives (run (.readpc 5) (given 0x104 [])) 0x104 [(5, 0x104)] = true ∧
    gives (run (.setFalse 5) (given 0x104 [(5, 0x1234)])) 0x104 [(5, 0x0)] = true ∧
    gives (run (.setTrue 5) (given 0x104 [])) 0x104 [(5, 0xFFFFFFFF)] = true ∧
    gives (run (.jsrCoroutine 5) (given 0x104 [(5, 0x400)])) 0x400 [] = true ∧
    gives (run (.ret 5) (given 0x104 [(5, 0x8004)] [(0x8000, 0x0), (0x8001, 0x0), (0x8002, 0x1), (0x8003, 0x8)])) 0x108 [(5, 0x8000)] = true ∧
    gives (run (.pushpc 5) (given 0x104 [(5, 0x8000)])) 0x104 [(5, 0x8004)] [(0x8000, 0x0), (0x8001, 0x0), (0x8002, 0x1), (0x8003, 0x4)] = true ∧
    gives (run (.poppc 5) (given 0x104 [(5, 0x8004)] [(0x8000, 0x0), (0x8001, 0x0), (0x8002, 0x2), (0x8003, 0x0)])) 0x200 [(5, 0x8000)] = true := by
  decide

/-- 95_test_vectors.md V46.2, V46.3, V46.4, V46.5, V46.7, V46.10, V46.11, V46.12, V46.13, V46.14, V46.15, V46.16. -/
theorem test_effect_two_operand_immediate_1 :
    gives (run (.addi 0 1 0x7FFF) (given 0x104 [(1, 0x1)])) 0x104 [(0, 0x8000)] = true ∧
    gives (run (.addui 0 1 0xFFFF) (given 0x104 [(1, 0xA)])) 0x104 [(0, 0x10009)] = true ∧
    gives (run (.subi 0 1 0x8000) (given 0x104 [(1, 0x0)])) 0x104 [(0, 0x8000)] = true ∧
    gives (run (.subui 0 1 0x8000) (given 0x104 [(1, 0x0)])) 0x104 [(0, 0xFFFF8000)] = true ∧
    gives (run (.cmpi 0 1 0xFFFF) (given 0x104 [(1, 0xFFFFFFFF)])) 0x104 [(0, 0x2)] = true ∧
    gives (run (.load 0 1 0xFFFC) (given 0x104 [(1, 0x204)] [(0x200, 0x80), (0x201, 0x1), (0x202, 0xFE), (0x203, 0xDC), (0x204, 0xBA), (0x205, 0x98), (0x206, 0x76), (0x207, 0x54)])) 0x104 [(0, 0x8001FEDC)] = true ∧
    gives (run (.load8 0 1 0x0002) (given 0x104 [(1, 0x200)] [(0x200, 0x80), (0x201, 0x1), (0x202, 0xFE), (0x203, 0xDC), (0x204, 0xBA), (0x205, 0x98), (0x206, 0x76), (0x207, 0x54)])) 0x104 [(0, 0xFFFFFFFE)] = true ∧
    gives (run (.loadu8 0 1 0x0002) (given 0x104 [(1, 0x200)] [(0x200, 0x80), (0x201, 0x1), (0x202, 0xFE), (0x203, 0xDC), (0x204, 0xBA), (0x205, 0x98), (0x206, 0x76), (0x207, 0x54)])) 0x104 [(0, 0xFE)] = true ∧
    gives (run (.load16 0 1 0x0000) (given 0x104 [(1, 0x200)] [(0x200, 0x80), (0x201, 0x1), (0x202, 0xFE), (0x203, 0xDC), (0x204, 0xBA), (0x205, 0x98), (0x206, 0x76), (0x207, 0x54)])) 0x104 [(0, 0xFFFF8001)] = true ∧
    gives (run (.loadu16 0 1 0x0000) (given 0x104 [(1, 0x200)] [(0x200, 0x80), (0x201, 0x1), (0x202, 0xFE), (0x203, 0xDC), (0x204, 0xBA), (0x205, 0x98), (0x206, 0x76), (0x207, 0x54)])) 0x104 [(0, 0x8001)] = true ∧
    gives (run (.load32 0 1 0x0001) (given 0x104 [(1, 0x200)] [(0x200, 0x80), (0x201, 0x1), (0x202, 0xFE), (0x203, 0xDC), (0x204, 0xBA), (0x205, 0x98), (0x206, 0x76), (0x207, 0x54)])) 0x104 [(0, 0x1FEDCBA)] = true ∧
    gives (run (.loadu32 0 1 0x0004) (given 0x104 [(1, 0x200)] [(0x200, 0x80), (0x201, 0x1), (0x202, 0xFE), (0x203, 0xDC), (0x204, 0xBA), (0x205, 0x98), (0x206, 0x76), (0x207, 0x54)])) 0x104 [(0, 0xBA987654)] = true := by
  decide

/-- 95_test_vectors.md V46.9, V46.19, V46.20, V46.21, V46.22. -/
theorem test_effect_two_operand_immediate_2 :
    gives (run (.cmpui 0 1 0xFFFF) (given 0x104 [(1, 0x10000)])) 0x104 [(0, 0x4)] = true ∧
    gives (run (.store 0 1 0x0008) (given 0x104 [(0, 0x89ABCDEF), (1, 0x300)])) 0x104 [] [(0x308, 0x89), (0x309, 0xAB), (0x30A, 0xCD), (0x30B, 0xEF)] = true ∧
    gives (run (.store8 0 1 0x0008) (given 0x104 [(0, 0x89ABCDEF), (1, 0x300)])) 0x104 [] [(0x308, 0xEF)] = true ∧
    gives (run (.store16 0 1 0xFFFE) (given 0x104 [(0, 0x89ABCDEF), (1, 0x300)])) 0x104 [] [(0x2FE, 0xCD), (0x2FF, 0xEF)] = true ∧
    gives (run (.store32 0 1 0x0001) (given 0x104 [(0, 0x89ABCDEF), (1, 0x300)])) 0x104 [] [(0x301, 0x89), (0x302, 0xAB), (0x303, 0xCD), (0x304, 0xEF)] = true := by
  decide

/-- 95_test_vectors.md V47.1, V47.3, V47.5, V47.7, V47.8, V47.10, V47.12, V47.13, V47.16, V47.26, V47.20, V47.21. -/
theorem test_effect_one_operand_immediate_1 :
    gives (run (.jumpC 7 0x0010) (given 0x104 [(7, 0x20)])) 0x114 [] = true ∧
    gives (run (.jumpB 7 0xFFF8) (given 0x104 [(7, 0x10)])) 0xFC [] = true ∧
    gives (run (.jumpO 7 0x0010) (given 0x104 [(7, 0x8)])) 0x114 [] = true ∧
    gives (run (.jumpG 7 0x0010) (given 0x104 [(7, 0x2)])) 0x104 [] = true ∧
    gives (run (.jumpGe 7 0x0010) (given 0x104 [(7, 0x2)])) 0x114 [] = true ∧
    gives (run (.jumpE 7 0x0010) (given 0x104 [(7, 0x2)])) 0x114 [] = true ∧
    gives (run (.jumpNe 7 0x0010) (given 0x104 [(7, 0x0)])) 0x114 [] = true ∧
    gives (run (.jumpLe 7 0x0010) (given 0x104 [(7, 0x1)])) 0x114 [] = true ∧
    gives (run (.jumpL 7 0x0010) (given 0x104 [(7, 0x21)])) 0x114 [] = true ∧
    gives (run (.jumpZ 7 0xFFFC) (given 0x104 [(7, 0x0)])) 0x100 [] = true ∧
    gives (run (.jumpNz 7 0x0010) (given 0x104 [(7, 0x0)])) 0x104 [] = true ∧
    gives (run (.jumpP 7 0x0010) (given 0x104 [(7, 0x0)])) 0x114 [] = true := by
  decide

/-- 95_test_vectors.md V47.25, V47.28, V47.30, V47.33, V47.34, V47.41, V47.42, V47.40, V47.38, V47.39, V47.43,
V47.44. -/
theorem test_effect_one_operand_immediate_2 :
    gives (run (.jumpNp 7 0x0010) (given 0x104 [(7, 0x0)])) 0x104 [] = true ∧
    gives (run (.calli 7 0x00FC) (given 0x104 [(7, 0x8000)])) 0x200 [(7, 0x8004)] [(0x8000, 0x0), (0x8001, 0x0), (0x8002, 0x1), (0x8003, 0x4)] = true ∧
    gives (run (.loadi 7 0x8000) (given 0x104 [])) 0x104 [(7, 0xFFFF8000)] = true ∧
    gives (run (.loadui 7 0x1101) (given 0x104 [])) 0x104 [(7, 0x1101)] = true ∧
    gives (run (.sali 7 0x0004) (given 0x104 [(7, 0x12345678)])) 0x104 [(7, 0x23456780)] = true ∧
    gives (run (.sari 7 0x8000) (given 0x104 [(7, 0x80000000)])) 0x104 [(7, 0xFFFFFFFF)] = true ∧
    gives (run (.sl0i 7 0x0000) (given 0x104 [(7, 0x1234)])) 0x104 [(7, 0x1234)] = true ∧
    gives (run (.sr0i 7 0x0020) (given 0x104 [(7, 0xFFFFFFFF)])) 0x104 [(7, 0x0)] = true ∧
    gives (run (.sl1i 7 0x0008) (given 0x104 [(7, 0x0)])) 0x104 [(7, 0xFF)] = true ∧
    gives (run (.sr1i 7 0x0008) (given 0x104 [(7, 0x0)])) 0x104 [(7, 0xFF000000)] = true ∧
    gives (run (.loadr 7 0x000C) (given 0x104 [] [(0x110, 0x80), (0x111, 0x1), (0x112, 0xFE), (0x113, 0xDC)])) 0x104 [(7, 0x8001FEDC)] = true ∧
    gives (run (.loadr8 7 0x000C) (given 0x104 [] [(0x110, 0x80), (0x111, 0x1), (0x112, 0xFE), (0x113, 0xDC)])) 0x104 [(7, 0xFFFFFF80)] = true := by
  decide

/-- 95_test_vectors.md V47.45, V47.46, V47.47, V47.48, V47.49, V47.53, V47.57, V47.55, V47.56, V47.60. -/
theorem test_effect_one_operand_immediate_3 :
    gives (run (.loadru8 7 0x000C) (given 0x104 [] [(0x110, 0x80), (0x111, 0x1), (0x112, 0xFE), (0x113, 0xDC)])) 0x104 [(7, 0x80)] = true ∧
    gives (run (.loadr16 7 0x000C) (given 0x104 [] [(0x110, 0x80), (0x111, 0x1), (0x112, 0xFE), (0x113, 0xDC)])) 0x104 [(7, 0xFFFF8001)] = true ∧
    gives (run (.loadru16 7 0x000C) (given 0x104 [] [(0x110, 0x80), (0x111, 0x1), (0x112, 0xFE), (0x113, 0xDC)])) 0x104 [(7, 0x8001)] = true ∧
    gives (run (.loadr32 7 0x000C) (given 0x104 [] [(0x110, 0x80), (0x111, 0x1), (0x112, 0xFE), (0x113, 0xDC)])) 0x104 [(7, 0x8001FEDC)] = true ∧
    gives (run (.loadru32 7 0x000C) (given 0x104 [] [(0x110, 0x80), (0x111, 0x1), (0x112, 0xFE), (0x113, 0xDC)])) 0x104 [(7, 0x8001FEDC)] = true ∧
    gives (run (.storer 7 0x00FC) (given 0x104 [(7, 0x89ABCDEF)])) 0x104 [] [(0x200, 0x89), (0x201, 0xAB), (0x202, 0xCD), (0x203, 0xEF)] = true ∧
    gives (run (.storer8 7 0xFFFC) (given 0x104 [(7, 0xFF)])) 0x104 [] [(0x100, 0xFF)] = true ∧
    gives (run (.storer16 7 0x00FC) (given 0x104 [(7, 0x89ABCDEF)])) 0x104 [] [(0x200, 0xCD), (0x201, 0xEF)] = true ∧
    gives (run (.storer32 7 0x00FC) (given 0x104 [(7, 0x89ABCDEF)])) 0x104 [] [(0x200, 0x89), (0x201, 0xAB), (0x202, 0xCD), (0x203, 0xEF)] = true ∧
    gives (run (.jump 0x8000) (given 0x104 [])) 0xFFFF8104 [] = true := by
  decide

/-- 95_test_vectors.md V48.1, V48.8, V48.11, V48.12, V48.15, V48.26, V48.34. -/
theorem test_effect_halcode :
    gives (run .fopenRead { given 0x104 [(0, 0x1100)] with tape1 := { cells := [0x0, 0x0, 0x41, 0x42, 0x0, 0x43], pos := 0, mode := .closed } }) 0x104 [] = true ∧
    meets (run .fopenRead { given 0x104 [(0, 0x1100)] with tape1 := { cells := [0x0, 0x0, 0x41, 0x42, 0x0, 0x43], pos := 0, mode := .closed } }) (fun t => (t.mach.tape1 == { cells := [0x0, 0x0, 0x41, 0x42, 0x0, 0x43], pos := 2, mode := .reading })) = true ∧
    gives (run .fopenWrite { given 0x104 [(0, 0x1100)] with tape1 := { cells := [0x41, 0x42, 0x0, 0x43], pos := 0, mode := .closed } }) 0x104 [] = true ∧
    meets (run .fopenWrite { given 0x104 [(0, 0x1100)] with tape1 := { cells := [0x41, 0x42, 0x0, 0x43], pos := 0, mode := .closed } }) (fun t => (t.mach.tape1 == { cells := [0x41, 0x42, 0x0, 0x43], pos := 2, mode := .writing })) = true ∧
    gives (run .fclose { given 0x104 [(0, 0x1101)] with tape2 := { cells := [], pos := 0, mode := .closed } }) 0x104 [] = true ∧
    gives (run .rewind { given 0x104 [(0, 0x1100)] with tape1 := { cells := [0x0, 0x0, 0x41, 0x42, 0x0, 0x43], pos := 5, mode := .reading } }) 0x104 [] = true ∧
    meets (run .rewind { given 0x104 [(0, 0x1100)] with tape1 := { cells := [0x0, 0x0, 0x41, 0x42, 0x0, 0x43], pos := 5, mode := .reading } }) (fun t => (t.mach.tape1 == { cells := [0x0, 0x0, 0x41, 0x42, 0x0, 0x43], pos := 2, mode := .reading })) = true ∧
    gives (run .fseek { given 0x104 [(0, 0x1100), (1, 0xFFFFFFFE)] with tape1 := { cells := [0x0, 0x0, 0x41, 0x42, 0x0, 0x43], pos := 2, mode := .reading } }) 0x104 [] = true ∧
    meets (run .fseek { given 0x104 [(0, 0x1100), (1, 0xFFFFFFFE)] with tape1 := { cells := [0x0, 0x0, 0x41, 0x42, 0x0, 0x43], pos := 2, mode := .reading } }) (fun t => (t.mach.tape1 == { cells := [0x0, 0x0, 0x41, 0x42, 0x0, 0x43], pos := 0, mode := .reading })) = true ∧
    gives (run .fgetc { given 0x104 [(1, 0x0)] with tty := { input := [0x68, 0x69], output := [] } }) 0x104 [(0, 0x68)] = true ∧
    meets (run .fgetc { given 0x104 [(1, 0x0)] with tty := { input := [0x68, 0x69], output := [] } }) (fun t => (t.mach.tty.input == [0x69])) = true ∧
    gives (run .fputc (given 0x104 [(0, 0x168), (1, 0x0)])) 0x104 [] = true ∧
    meets (run .fputc (given 0x104 [(0, 0x168), (1, 0x0)])) (fun t => (t.mach.tty.output == [0x68])) = true := by
  decide

/-- 95_test_vectors.md V49.2, V49.3, V49.4, V49.6, V49.7, V49.8, V49.9, V49.11, V49.12, V49.13, V49.15, V49.16. -/
theorem test_effect_high_immediate_1 :
    gives (run (.cmpskipiG 6 0xFFFF) (given 0x104 [(6, 0xFFFFFFFF)])) 0x104 [] = true ∧
    gives (run (.cmpskipiGe 6 0xFFFF) (given 0x104 [(6, 0xFFFFFFFF)])) 0x108 [] = true ∧
    gives (run (.cmpskipiE 6 0xFFFF) (given 0x104 [(6, 0xFFFFFFFF)])) 0x108 [] = true ∧
    gives (run (.cmpskipiNe 6 0xFFFF) (given 0x104 [(6, 0xFFFF)])) 0x108 [] = true ∧
    gives (run (.cmpskipiLe 6 0x8000) (given 0x104 [(6, 0x80000000)])) 0x108 [] = true ∧
    gives (run (.cmpskipiL 6 0x0005) (given 0x104 [(6, 0x5)])) 0x104 [] = true ∧
    gives (run (.cmpskipuiG 6 0xFFFF) (given 0x104 [(6, 0xFFFF)])) 0x104 [] = true ∧
    gives (run (.cmpskipuiGe 6 0xFFFF) (given 0x104 [(6, 0xFFFF)])) 0x108 [] = true ∧
    gives (run (.cmpskipuiLe 6 0xFFFF) (given 0x104 [(6, 0xFFFFFFFF)])) 0x104 [] = true ∧
    gives (run (.cmpskipuiL 6 0xFFFF) (given 0x104 [(6, 0x0)])) 0x108 [] = true ∧
    gives (run (.andi 0 1 0xFF00) (given 0x104 [(1, 0x12345678)])) 0x104 [(0, 0x12345600)] = true ∧
    gives (run (.ori 0 1 0x8000) (given 0x104 [(1, 0x1)])) 0x104 [(0, 0xFFFF8001)] = true := by
  decide

/-- 95_test_vectors.md V49.18, V49.19, V49.20, V49.21, V49.22, V49.24, V49.25, V49.26, V49.27, V49.28, V49.29,
V49.30. -/
theorem test_effect_high_immediate_2 :
    gives (run (.xori 0 1 0xFFFF) (given 0x104 [(1, 0x12345678)])) 0x104 [(0, 0xEDCBA987)] = true ∧
    gives (run (.nandi 0 1 0x00FF) (given 0x104 [(1, 0x12345678)])) 0x104 [(0, 0xFFFFFF87)] = true ∧
    gives (run (.nori 0 1 0x00FF) (given 0x104 [(1, 0x12345678)])) 0x104 [(0, 0xEDCBA900)] = true ∧
    gives (run (.xnori 0 1 0x00FF) (given 0x104 [(1, 0x12345678)])) 0x104 [(0, 0xEDCBA978)] = true ∧
    gives (run (.cmpjumpiG 0 1 0x0020) (given 0x104 [(0, 0x5), (1, 0x3)])) 0x124 [] = true ∧
    gives (run (.cmpjumpiGe 0 1 0xFFF0) (given 0x104 [(0, 0x3), (1, 0x3)])) 0xF4 [] = true ∧
    gives (run (.cmpjumpiE 0 1 0x0020) (given 0x104 [(0, 0x3), (1, 0x3)])) 0x124 [] = true ∧
    gives (run (.cmpjumpiNe 0 1 0x0020) (given 0x104 [(0, 0x3), (1, 0x3)])) 0x104 [] = true ∧
    gives (run (.cmpjumpiLe 0 1 0x0020) (given 0x104 [(0, 0xFFFFFFFF), (1, 0x0)])) 0x124 [] = true ∧
    gives (run (.cmpjumpiL 0 1 0x0020) (given 0x104 [(0, 0x0), (1, 0xFFFFFFFF)])) 0x104 [] = true ∧
    gives (run (.cmpjumpuiG 0 1 0x0020) (given 0x104 [(0, 0xFFFFFFFF), (1, 0x0)])) 0x124 [] = true ∧
    gives (run (.cmpjumpuiGe 0 1 0x0020) (given 0x104 [(0, 0x0), (1, 0xFFFFFFFF)])) 0x104 [] = true := by
  decide

/-- 95_test_vectors.md V49.31, V49.32. -/
theorem test_effect_high_immediate_3 :
    gives (run (.cmpjumpuiLe 0 1 0x0020) (given 0x104 [(0, 0x0), (1, 0xFFFFFFFF)])) 0x124 [] = true ∧
    gives (run (.cmpjumpuiL 0 1 0xFFF0) (given 0x104 [(0, 0x0), (1, 0xFFFFFFFF)])) 0xF4 [] = true := by
  decide

/-- 95_test_vectors.md V64.1 to V64.10, at XLEN = 64. -/
theorem test_effect_64_bits_1 :
    gives (run (.setTrue 5) (given64 0x104 [])) 0x104 [(5, 0xFFFFFFFFFFFFFFFF)] = true ∧
    gives (run (.loadi 7 0x8000) (given64 0x104 [])) 0x104 [(7, 0xFFFFFFFFFFFF8000)] = true ∧
    gives (run (.add 0 1 2) (given64 0x104 [(1, 0xFFFFFFFF), (2, 0x1)])) 0x104 [(0, 0x100000000)] = true ∧
    gives (run (.adduCo 0 1 2 3) (given64 0x104 [(1, 0xFFFFFFFFFFFFFFFF), (2, 0x1), (3, 0x0)])) 0x104 [(0, 0x0), (3, 0x20)] = true ∧
    gives (run (.mulh 0 1 2) (given64 0x104 [(1, 0x100000000), (2, 0x100000000)])) 0x104 [(0, 0x1)] = true ∧
    gives (run (.sar 0 1 2) (given64 0x104 [(1, 0x8000000000000000), (2, 0x3F)])) 0x104 [(0, 0xFFFFFFFFFFFFFFFF)] = true ∧
    gives (run (.rol 0 1 2) (given64 0x104 [(1, 0x1), (2, 0x40)])) 0x104 [(0, 0x1)] = true ∧
    gives (run (.sl0 0 1 2) (given64 0x104 [(1, 0x1), (2, 0x20)])) 0x104 [(0, 0x100000000)] = true ∧
    gives (run (.pushr 0 1) (given64 0x104 [(0, 0x123456789ABCDEF), (1, 0x8000)])) 0x104 [(1, 0x8008)] [(0x8000, 0x1), (0x8001, 0x23), (0x8002, 0x45), (0x8003, 0x67), (0x8004, 0x89), (0x8005, 0xAB), (0x8006, 0xCD), (0x8007, 0xEF)] = true ∧
    gives (run (.push32 0 1) (given64 0x104 [(0, 0x123456789ABCDEF), (1, 0x8000)])) 0x104 [(1, 0x8004)] [(0x8000, 0x89), (0x8001, 0xAB), (0x8002, 0xCD), (0x8003, 0xEF)] = true := by
  decide

/-- 95_test_vectors.md V64.11 to V64.20, at XLEN = 64. -/
theorem test_effect_64_bits_2 :
    gives (run (.popr 0 1) (given64 0x104 [(1, 0x8000)] [(0x7FF8, 0x1), (0x7FF9, 0x23), (0x7FFA, 0x45), (0x7FFB, 0x67), (0x7FFC, 0x89), (0x7FFD, 0xAB), (0x7FFE, 0xCD), (0x7FFF, 0xEF)])) 0x104 [(0, 0x123456789ABCDEF), (1, 0x7FF8)] [(0x7FF8, 0x0), (0x7FF9, 0x0), (0x7FFA, 0x0), (0x7FFB, 0x0), (0x7FFC, 0x0), (0x7FFD, 0x0), (0x7FFE, 0x0), (0x7FFF, 0x0)] = true ∧
    gives (run (.pop32 0 1) (given64 0x104 [(1, 0x8000)] [(0x7FF8, 0x1), (0x7FF9, 0x23), (0x7FFA, 0x45), (0x7FFB, 0x67), (0x7FFC, 0x89), (0x7FFD, 0xAB), (0x7FFE, 0xCD), (0x7FFF, 0xEF)])) 0x104 [(0, 0xFFFFFFFF89ABCDEF), (1, 0x7FFC)] [(0x7FFC, 0x0), (0x7FFD, 0x0), (0x7FFE, 0x0), (0x7FFF, 0x0)] = true ∧
    gives (run (.popu32 0 1) (given64 0x104 [(1, 0x8000)] [(0x7FF8, 0x1), (0x7FF9, 0x23), (0x7FFA, 0x45), (0x7FFB, 0x67), (0x7FFC, 0x89), (0x7FFD, 0xAB), (0x7FFE, 0xCD), (0x7FFF, 0xEF)])) 0x104 [(0, 0x89ABCDEF), (1, 0x7FFC)] [(0x7FFC, 0x0), (0x7FFD, 0x0), (0x7FFE, 0x0), (0x7FFF, 0x0)] = true ∧
    gives (run (.load32 0 1 0x0004) (given64 0x104 [(1, 0x7FF8)] [(0x7FF8, 0x1), (0x7FF9, 0x23), (0x7FFA, 0x45), (0x7FFB, 0x67), (0x7FFC, 0x89), (0x7FFD, 0xAB), (0x7FFE, 0xCD), (0x7FFF, 0xEF)])) 0x104 [(0, 0xFFFFFFFF89ABCDEF)] = true ∧
    gives (run (.loadu32 0 1 0x0004) (given64 0x104 [(1, 0x7FF8)] [(0x7FF8, 0x1), (0x7FF9, 0x23), (0x7FFA, 0x45), (0x7FFB, 0x67), (0x7FFC, 0x89), (0x7FFD, 0xAB), (0x7FFE, 0xCD), (0x7FFF, 0xEF)])) 0x104 [(0, 0x89ABCDEF)] = true ∧
    gives (run (.load 0 1 0x0000) (given64 0x104 [(1, 0x7FF8)] [(0x7FF8, 0x1), (0x7FF9, 0x23), (0x7FFA, 0x45), (0x7FFB, 0x67), (0x7FFC, 0x89), (0x7FFD, 0xAB), (0x7FFE, 0xCD), (0x7FFF, 0xEF)])) 0x104 [(0, 0x123456789ABCDEF)] = true ∧
    gives (run (.store 0 1 0x0000) (given64 0x104 [(0, 0x123456789ABCDEF), (1, 0x300)])) 0x104 [] [(0x300, 0x1), (0x301, 0x23), (0x302, 0x45), (0x303, 0x67), (0x304, 0x89), (0x305, 0xAB), (0x306, 0xCD), (0x307, 0xEF)] = true ∧
    gives (run (.call 0 1) (given64 0x104 [(0, 0x400), (1, 0x8000)])) 0x400 [(1, 0x8008)] [(0x8000, 0x0), (0x8001, 0x0), (0x8002, 0x0), (0x8003, 0x0), (0x8004, 0x0), (0x8005, 0x0), (0x8006, 0x1), (0x8007, 0x4)] = true ∧
    gives (run (.cmpi 0 1 0xFFFF) (given64 0x104 [(1, 0xFFFFFFFF)])) 0x104 [(0, 0x4)] = true ∧
    gives (run (.abs 0 1) (given64 0x104 [(1, 0x8000000000000000)])) 0x104 [(0, 0x8000000000000000)] = true := by
  decide

/-! ### WellFormed: each check refuses an ill-formed term -/

theorem test_well_formed_refuses_improper_nop_and_halt :
    (Instr.nop 1).wellFormed = false ∧ (Instr.halt 0).wellFormed = false ∧
    (Instr.nop 0).wellFormed = true ∧ (Instr.halt 0xFFFFFF).wellFormed = true := by
  decide

theorem test_well_formed_refuses_one_register_for_two_results :
    (Instr.adduCo 3 1 2 3).wellFormed = false ∧ (Instr.multiply 4 4 1 2).wellFormed = false ∧
    (Instr.move 5 5).wellFormed = false ∧ (Instr.popr 6 6).wellFormed = false ∧
    (Instr.swap 5 5).wellFormed = true ∧ (Instr.addCi 3 1 2 3).wellFormed = true := by
  decide

/-! ### Words that are no instruction (30_encoding.md R105 to R108, R115) -/

theorem test_reserved_words_are_rejected :
    decode 0x01200000 = .error (.illegal 0x01200000) ∧ decode 0x02000000 = .error (.illegal 0x02000000) ∧
    decode 0x0D000040 = .error (.illegal 0x0D000040) ∧ decode 0x2CD00000 = .error (.illegal 0x2CD00000) ∧
    decode 0x3C010000 = .error (.illegal 0x3C010000) ∧ decode 0x42000000 = .error (.invalidHalcode 0) ∧
    decode 0x42100005 = .error (.invalidHalcode 0x100005) ∧ decode 0xA1200000 = .error (.illegal 0xA1200000) := by
  decide

theorem test_bytes_decode_in_address_order :
    decodeBytes [0x05, 0x00, 0x01, 0x2F, 0xAA] = .ok (.add 1 2 15) ∧
    decodeTableWord 32 0x0500012F = some (.add 1 2 15) ∧
    decodeBytes [0x05, 0x00, 0x01] = .error .truncated := by
  decide

/-! ### Faults, refusals and the step -/

/-- READSCID gives the constant of the machine (45_1op.md R332). -/
theorem test_readscid : run (.readscid 3) (given 0x104 []) =
    .next ((given 0x104 []).setReg 3 Config.scid).toState :=
  rfl

/-- A fault leaves pc at the instruction and writes nothing (60_exceptions.md R500, R502, R503, R506, R507, R508). -/
theorem test_faults_are_precise :
    run (.div 0 1 2) (given 0x104 [(1, 7)]) =
      .next ((given 0x104 [(1, 7)]).takeFault 0x100 .divideByZero).toState ∧
    run (.loadx 0 1 2) (given 0x104 [(1, 0xFFFD)]) =
      .next ((given 0x104 [(1, 0xFFFD)]).takeFault 0x100 (.memoryOutOfRange 0xFFFD 4)).toState ∧
    run .rewind (given 0x104 [(0, 5)]) = .next ((given 0x104 [(0, 5)]).takeFault 0x100 (.invalidDevice 5)).toState ∧
    run .fgetc (given 0x104 [(1, 0x1100)]) =
      .next ((given 0x104 [(1, 0x1100)]).takeFault 0x100 (.deviceNotOpen 0x1100)).toState ∧
    run .fseek (given 0x104 [(0, 0x1101), (1, 0xFFFFFFFF)]) =
      .next ((given 0x104 [(0, 0x1101), (1, 0xFFFFFFFF)]).takeFault 0x100 (.seekOutOfRange 0x1101 (-1))).toState :=
  ⟨eq_next (by decide), eq_next (by decide), eq_next (by decide), eq_next (by decide), eq_next (by decide)⟩

theorem test_refusals :
    run (.adduCo 3 1 2 3) (given 0x104 []) = .refused .coincidingDestinations ∧
    run (.pop8 6 6) (given 0x104 []) = .refused .coincidingDestinations ∧
    run (.pack 0 1 2) (given 0x104 []) = .refused .unspecifiedSemantics :=
  ⟨eq_refused (by decide), eq_refused (by decide), eq_refused (by decide)⟩

/-- The fetch reads four bytes at pc, and a word that is no instruction faults at its own address (R546, R514). -/
theorem test_step_fetches_and_runs :
    gives (step (given 0x100 [(2, 7), (15, 5)] [(0x100, 0x05), (0x102, 0x01), (0x103, 0x2F)]).toState)
      0x104 [(1, 12)] = true ∧
    gives (step ((given 0x102 [(2, 7), (15, 5)]).toState.withFetchWord 32 0x0500012F)) 0x106 [(1, 12)] = true ∧
    gives (step ((given64 0x102 [(2, 7), (15, 5)]).toState.withFetchWord 32 0x0500012F)) 0x106 [(1, 12)] = true ∧
    meets (step (given 0x100 [] [(0x100, 0x3D)]).toState)
      (fun t => t.mach.status == .faulted (.illegalInstruction 0x3D000000) && t.mach.pc.toNat == 0x100) = true ∧
    meets (step (given 0xFFFD []).toState)
      (fun t => t.mach.status == .faulted (.memoryOutOfRange 0xFFFD 4)) = true := by
  decide

/-- A write of the value an unlisted byte reads as removes the entry. -/
theorem test_memory_stays_canonical :
    ((State.reset.mach.mem.put 5 1).put 3 2).cells = [(3, 2), (5, 1)] ∧
    (((State.reset.mach.mem.put 5 1).put 3 2).put 5 0).cells = [(3, 2)] ∧ ((State.reset.mach.mem.put 5 1).put 3 2).wf = true := by
  decide

theorem test_tape_output_is_stripped :
    stripZeros [0, 0, 1, 0, 2, 0] = [1, 0, 2] ∧
    Tape.output { cells := [0, 7], pos := 2, mode := .closed } = some [7] ∧
    Tape.output { cells := [0, 7], pos := 2, mode := .writing } = none := by
  decide

/-! ### Witnesses: a state and operands that meet the hypotheses of each obligation, at the ends of their ranges -/

theorem witness_EncodeDecode : decode 0x0500012F = .ok (.add 1 2 15) ∧ decode 0x00000001 = .ok (.nop 1) := by
  decide

theorem witness_DecodeFollowsTable :
    decode 0x2CA1FFF4 = .ok (.jumpNz 1 0xFFF4) ∧ matchesRow 0x2CA1FFF4 (tableRow (.jumpNz 0 0)) = true := by
  decide

/-- Both kinds of word without a row, the fetch ending at the last byte of memory. -/
theorem witness_DecodeRejects :
    (let s := given 0xFFFC [] [(0xFFFC, 0x42)]
     s.status = .running ∧ s.pc.toNat + 4 = s.mem.size ∧ s.fetchWord.toNat / 2 ^ 24 = 0x42 ∧
       ∀ i, matchesRow s.fetchWord (tableRow i) = false) ∧
    (let s := given 0xFFFC [] [(0xFFFC, 0x3D)]
     s.status = .running ∧ s.pc.toNat + 4 = s.mem.size ∧ s.fetchWord.toNat / 2 ^ 24 ≠ 0x42 ∧
       ∀ i, matchesRow s.fetchWord (tableRow i) = false) := by
  have h1 : (given 0xFFFC [] [(0xFFFC, 0x42)]).fetchWord = 0x42000000 := by decide
  have h2 : (given 0xFFFC [] [(0xFFFC, 0x3D)]).fetchWord = 0x3D000000 := by decide
  refine ⟨⟨rfl, rfl, by decide, fun i => ?_⟩, rfl, rfl, by decide, fun i => ?_⟩
  · rw [h1]; cases i <;> (simp only [tableRow]; decide)
  · rw [h2]; cases i <;> (simp only [tableRow]; decide)

theorem witness_StepRunsDecodedInstruction :
    let s := given 0xFFFC [] [(0xFFFC, 0xFF)]
    s.status = .running ∧ s.pc.toNat + 4 = s.mem.size ∧ decode s.fetchWord = .ok (.halt 0) := by
  decide

theorem witness_FetchReadsMemory :
    let s := given 0xFFFC [(1, 0xFFF0), (2, 0xC)]
    s.indexed 1 2 = s.pc ∧ s.pc.toNat + 4 = s.mem.size := by
  decide

theorem witness_FetchOutOfRangeFaults :
    (given 0xFFFD []).status = .running ∧ (given 0xFFFD []).mem.size < (given 0xFFFD []).pc.toNat + 4 ∧
    (given 0xFFFFFFFF []).mem.size < (given 0xFFFFFFFF []).pc.toNat + 4 := by
  decide

theorem witness_FinalStateIsUnchanged :
    (State.reset.mach.setStatus .halted).toState.mach.status ≠ .running ∧
    (State.reset.mach.setStatus (.faulted .divideByZero)).toState.mach.status ≠ .running ∧
    State.reset.mach.status = .running ∧ step State.reset = .next State.reset.mach.advance.toState :=
  ⟨by decide, by decide, rfl, eq_next (by decide)⟩

theorem witness_FaultsArePrecise :
    let s := given 0x100 [] [(0x100, 0x3D)]
    s.toState.mach.status = .running ∧
      step s.toState = .next (s.takeFault 0x100 (.illegalInstruction 0x3D000000)).toState ∧
      (s.takeFault 0x100 (.illegalInstruction 0x3D000000)).toState.mach.status =
        .faulted (.illegalInstruction 0x3D000000) :=
  ⟨rfl, eq_next (by decide), rfl⟩

/-- A state stopped at a division whose divisor register is 0, and one that is not faulted; a state whose status records
a fault that the word at its pc does not have is refused by the invariant. -/
theorem witness_FaultRecordsTrueCause :
    (let s := (given 0x100 [(1, 7)] [(0x100, 0x05), (0x102, 0xA0), (0x103, 0x12)]).setStatus (.faulted .divideByZero)
     s.toState.FaultInv ∧ step s.toState = .next s.toState) ∧
    State.reset.FaultInv ∧ step State.reset = .next State.reset.mach.advance.toState ∧
    ¬(State.reset.mach.setStatus (.faulted .divideByZero)).toState.FaultInv := by
  refine ⟨⟨fun f h => ?_, rfl⟩, fun f h => ?_, eq_next (by decide), fun h => ?_⟩
  · cases h
    exact ⟨.div 0 1 2, 1, 2, ⟨show (0x104 : Nat) ≤ 0x10000 by decide, by decide, rfl⟩, rfl, rfl⟩
  · cases h
  · obtain ⟨i, c, d, ⟨-, hi, -⟩, hd, -⟩ := h .divideByZero rfl
    have hn : decode (State.reset.mach.setStatus (.faulted .divideByZero)).fetchWord = .ok (.nop 0) := by decide
    cases hn.symm.trans hi
    cases hd

theorem witness_InvariantKept : State.reset.Inv ∧ step State.reset = .next State.reset.mach.advance.toState :=
  ⟨⟨by decide, by decide⟩, eq_next (by decide)⟩

/-- The smallest memory with the empty image, and one that is the whole address space, filled. -/
theorem witness_BootPlacesImage :
    (let r : RunInputs Config.resetXlen := { RunInputs.default with memSize := 8 }
     8 ≤ r.memSize ∧ r.memSize ≤ 2 ^ Config.resetXlen.bits ∧ r.image.length ≤ r.memSize) ∧
    (let r : RunInputs Config.resetXlen :=
      { RunInputs.default with memSize := 2 ^ 32, image := List.replicate (2 ^ 32) 1 }
     8 ≤ r.memSize ∧ r.memSize = 2 ^ Config.resetXlen.bits ∧ r.image.length = r.memSize) :=
  ⟨⟨by decide, by decide, Nat.zero_le _⟩, by decide, by decide, List.length_replicate⟩

theorem witness_NopAndHalt :
    (0x00ABCDEF : InstrWord).toNat / 2 ^ 24 = 0x00 ∧ (0xFF000000 : InstrWord).toNat / 2 ^ 24 = 0xFF := by
  decide

/-- For AddWithCarryOut, SubWithBorrowOut, FullProducts, DivisionResults, SortMaxMin, UnaryOperations
and Pops: two destinations, and one
register for both. -/
theorem witness_distinct_and_coinciding_registers :
    (0 : Reg) ≠ 15 ∧ (7 : Reg) = 7 ∧
    Instr.adduCio 7 0 0 7 ∈ [Instr.addCo 7 0 0 7, .addCio 7 0 0 7, .adduCo 7 0 0 7, .adduCio 7 0 0 7] ∧
    Instr.subBo 7 0 0 7 ∈ [Instr.subBo 7 0 0 7, .subBio 7 0 0 7, .subuBo 7 0 0 7, .subuBio 7 0 0 7] ∧
    Instr.multiplyu 7 7 0 0 ∈ [Instr.multiply 7 7 0 0, .multiplyu 7 7 0 0] := by
  decide

/-- The ordinary case at its ends, the zero divisor, and the corner -2^31 / -1. -/
theorem witness_DivisionResults :
    (let s := given 0 [(2, 0x80000000), (3, 1)]
     sInt (s.reg 3) ≠ 0 ∧ uInt (s.reg 3) ≠ 0 ∧
       ¬(sInt (s.reg 2) = -2 ^ (Config.resetXlen.bits - 1) ∧ sInt (s.reg 3) = -1)) ∧
    (let s := given 0 [(2, 0x80000001), (3, 0xFFFFFFFF)]
     sInt (s.reg 3) ≠ 0 ∧ uInt (s.reg 3) ≠ 0 ∧
       ¬(sInt (s.reg 2) = -2 ^ (Config.resetXlen.bits - 1) ∧ sInt (s.reg 3) = -1)) ∧
    uInt ((given 0 [(2, 7)]).reg 3) = 0 ∧
    (let s := given 0 [(2, 0x80000000), (3, 0xFFFFFFFF)]
     sInt (s.reg 2) = -2 ^ (Config.resetXlen.bits - 1) ∧ sInt (s.reg 3) = -1) := by
  decide

/-- The two low halves in one register, which is also the flag register, and the high sum in an operand. -/
theorem witness_CarryChainAddsDoubleWords :
    (1 : Reg) ≠ 8 ∧ (3 : Reg) ≠ 1 ∧ (3 : Reg) ≠ 8 ∧ (8 : Reg) ≠ 1 ∧
    gives (run (.adduCo 1 8 8 8) (given 0 [(8, 0x80000000)])) 0 [(1, 0), (8, 0x80000020)] = true := by
  decide

theorem witness_CompareThenJump :
    (Instr.jumpL 1 8, Instr.cmpjumpiL 2 3 8) ∈ [(Instr.jumpG 1 8, Instr.cmpjumpiG 2 3 8),
      (.jumpGe 1 8, .cmpjumpiGe 2 3 8), (.jumpE 1 8, .cmpjumpiE 2 3 8), (.jumpNe 1 8, .cmpjumpiNe 2 3 8),
      (.jumpLe 1 8, .cmpjumpiLe 2 3 8), (.jumpL 1 8, .cmpjumpiL 2 3 8)] := by
  decide

theorem witness_PackIsRefused : run (.unpack 0 1 2) State.reset.mach = .refused .unspecifiedSemantics :=
  eq_refused (by decide)

theorem witness_CoincidingDestinationsRefused :
    (Instr.sort 0 1 2 2).hasDistinctDestinations = true ∧ (Instr.sort 0 1 2 2).isPack = false ∧
    (Instr.sort 1 1 2 3).hasDistinctDestinations = false := by
  decide

/-- For IndexedLoads and Stores: each width ending at the last byte of memory, and one byte further. -/
theorem witness_indexed_range :
    let s := given 0 [(1, 0xFFF0), (2, 0xC), (3, 0xE), (4, 0xF), (5, 0x10)]
    (s.indexed 1 2).toNat + 4 = s.mem.size ∧ (s.indexed 1 3).toNat + 2 = s.mem.size ∧
    (s.indexed 1 4).toNat + 1 = s.mem.size ∧ s.mem.size < (s.indexed 1 3).toNat + 4 ∧
    s.mem.size < (s.indexed 1 4).toNat + 2 ∧ s.mem.size < (s.indexed 1 5).toNat + 1 := by
  decide

/-- For BasedLoads and Stores. -/
theorem witness_based_range :
    let s := given 0 [(1, 0x10000)]
    (s.based 1 0xFFFC).toNat + 4 = s.mem.size ∧ (s.based 1 0xFFFE).toNat + 2 = s.mem.size ∧
    (s.based 1 0xFFFF).toNat + 1 = s.mem.size ∧ s.mem.size < (s.based 1 0xFFFD).toNat + 4 ∧
    s.mem.size < (s.based 1 0xFFFF).toNat + 2 ∧ s.mem.size < (s.based 1 0).toNat + 1 := by
  decide

/-- For RelativeLoads and Stores. -/
theorem witness_relative_range :
    let s := given 0x10000 []
    (s.relative 0xFFFC).toNat + 4 = s.mem.size ∧ (s.relative 0xFFFE).toNat + 2 = s.mem.size ∧
    (s.relative 0xFFFF).toNat + 1 = s.mem.size ∧ s.mem.size < (s.relative 0xFFFD).toNat + 4 ∧
    s.mem.size < (s.relative 0xFFFF).toNat + 2 ∧ s.mem.size < (s.relative 0).toNat + 1 := by
  decide

/-- For CompareJumpToRegister, CompareSkip and CompareJumpRelative: greater, equal and less, signed and unsigned. -/
theorem witness_relations :
    let s := given 0 [(1, 1), (2, 0xFFFFFFFF), (3, 1)]
    sInt (s.reg 1) > sInt (s.reg 2) ∧ sInt (s.reg 1) = sInt (s.reg 3) ∧ sInt (s.reg 2) < sInt (s.reg 1) ∧
    uInt (s.reg 2) > uInt (s.reg 1) ∧ uInt (s.reg 1) = uInt (s.reg 3) ∧ uInt (s.reg 1) < uInt (s.reg 2) := by
  decide

theorem witness_CompareSkipImmediate :
    let s := given 0 [(1, 1), (2, 0xFFFFFFFF)]
    sInt (s.reg 1) > sImm 0xFFFF ∧ sInt (s.reg 2) = sImm 0xFFFF ∧ sInt (s.reg 2) < sImm 0 ∧
    uInt (s.reg 2) > uImm 0xFFFF ∧ uInt (s.reg 1) = uImm 1 ∧ uInt (s.reg 1) < uImm 0xFFFF := by
  decide

/-- For UnaryOperations and JumpOnValueAndAlways. -/
theorem witness_signs :
    let s := given 0 [(1, 0x7FFFFFFF), (2, 0x80000000)]
    0 ≤ sInt (s.reg 0) ∧ 0 ≤ sInt (s.reg 1) ∧ sInt (s.reg 2) < 0 ∧ uInt (s.reg 0) = 0 ∧ uInt (s.reg 2) ≠ 0 := by
  decide

/-- For Pushes, Calls, PopUndoesPush and ReturnUndoesCall: a pointer at the last place that holds the datum, and one
further. -/
theorem witness_push_range :
    let s := given 0 [(1, 0xFFFC), (2, 0xFFFD), (3, 0xFFFE), (4, 0xFFFF), (5, 0x10000)]
    (s.reg 1).toNat + 4 = s.mem.size ∧ s.mem.size < (s.reg 2).toNat + 4 ∧ (s.reg 3).toNat + 2 = s.mem.size ∧
    s.mem.size < (s.reg 4).toNat + 2 ∧ (s.reg 4).toNat + 1 = s.mem.size ∧ s.mem.size < (s.reg 5).toNat + 1 ∧
    (0 : Reg) ≠ 1 ∧ Instr.calli 1 0 ∈ [Instr.call 0 1, .calli 1 0] := by
  decide

/-- The memory of 2^32 bytes that R6 allows: a pop at pointer 0 takes the top bytes, the choice of log 20; every other
pointer below the size faults, as the notes of R295 to R301 say (here 3, for 4 bytes). -/
theorem test_pop_at_zero :
    let s := given 0 [(2, 3)] [(0xFFFFFFFC, 0x80), (0xFFFFFFFF, 0x01)]
    let full := { s with mem := { s.mem with size := 2 ^ 32 } }
    (match exec (.popr 0 1) full.toState with
      | .next t => ((t.mach.regs.get 0).toNat, (t.mach.regs.get 1).toNat, t.mach.mem.cells.length, t.mach.status) ==
          (0x80000001, 0xFFFFFFFC, 0, .running)
      | _ => false) = true ∧
    (match exec (.popr 0 2) full.toState with
      | .next t => t.mach.status == .faulted (.memoryOutOfRange 0xFFFFFFFF 4)
      | _ => false) = true := by
  decide

/-- For Pops and Returns: the pointer at the end of memory, one further, and an empty stack at address 0. -/
theorem witness_pop_range :
    let s := given 0 [(1, 0x10000), (2, 0x10001), (3, 4)]
    (s.topAddress 1 .register).toNat + 4 = s.mem.size ∧ s.mem.size < (s.topAddress 2 .register).toNat + 4 ∧
    (s.topAddress 3 .register).toNat + 4 ≤ s.mem.size ∧ s.mem.size < (s.topAddress 0 .register).toNat + 4 ∧
    (s.topAddress 1 .bits8).toNat + 1 = s.mem.size ∧ s.mem.size < (s.topAddress 2 .bits8).toNat + 1 ∧
    (s.topAddress 1 .bits16).toNat + 2 = s.mem.size ∧ s.mem.size < (s.topAddress 2 .bits16).toNat + 2 ∧
    Instr.poppc 1 ∈ [Instr.ret 1, .poppc 1] := by
  decide

theorem witness_JumpOnConditionBits :
    let s := given 0 [(1, 0x3F)]
    bitOf (s.reg 1) 5 = true ∧ bitOf (s.reg 1) 4 = true ∧ bitOf (s.reg 1) 3 = true ∧ bitOf (s.reg 1) 2 = true ∧
    bitOf (s.reg 1) 1 = true ∧ bitOf (s.reg 1) 0 = true ∧ bitOf (s.reg 0) 1 = false ∧ ¬bitOf (s.reg 0) 5 = true := by
  decide

/-- For TapePositioning: each device, a seek that ends at the start of the tape, one that passes it, no device. -/
theorem witness_TapePositioning :
    let s := { given 0 [(0, 0x1100), (1, 0xFFFFFFFF)] with tape1 := { cells := [0, 7], pos := 1, mode := .reading } }
    let t := given 0 [(0, 0x1101), (1, 0xFFFFFFFF)]
    s.reg 0 = (Device.tape .tape1).id ∧ 0 = ((s.tape .tape1).pos : Int) + sInt (s.reg 1) ∧
    t.reg 0 = (Device.tape .tape2).id ∧ ((t.tape .tape2).pos : Int) + sInt (t.reg 1) < 0 ∧
    State.reset.mach.reg 0 = Device.tty.id ∧ ((given 0 [(0, 1)]).reg 0).toNat ∉ [0, 0x1100, 0x1101] ∧
    Instr.fseek ∈ [Instr.fopenRead, .fopenWrite, .fclose, .rewind, .fseek] := by
  decide

/-- For FgetcReads: a tape with a byte left, one without, one not open, the keyboard with a byte and without. -/
theorem witness_FgetcReads :
    let s := { given 0 [(1, 0x1100)] with
      tape1 := { cells := [7], pos := 0, mode := .reading }, tty := { input := [9], output := [] } }
    let t := { given 0 [(1, 0x1100)] with tape1 := { cells := [7], pos := 1, mode := .reading } }
    s.reg 1 = (Device.tape .tape1).id ∧ (s.tape .tape1).mode = .reading ∧
    (s.tape .tape1).cells[(s.tape .tape1).pos]? = some 7 ∧ s.tty.input = 9 :: [] ∧
    (t.tape .tape1).mode = .reading ∧ (t.tape .tape1).cells.length ≤ (t.tape .tape1).pos ∧
    (State.reset.mach.tape .tape1).mode ≠ .reading ∧ State.reset.mach.reg 1 = Device.tty.id ∧
    State.reset.mach.tty.input = [] ∧
    ((given 0 [(1, 0x1102)]).reg 1).toNat ∉ [0, 0x1100, 0x1101] := by
  decide

theorem witness_FputcWrites :
    let s := { given 0 [(1, 0x1101)] with tape2 := { cells := [], pos := 2, mode := .writing } }
    s.reg 1 = (Device.tape .tape2).id ∧ (s.tape .tape2).mode = .writing ∧
    (State.reset.mach.tape .tape2).mode ≠ .writing ∧ State.reset.mach.reg 1 = Device.tty.id ∧
    ((given 0 [(1, 0xFFFFFFFF)]).reg 1).toNat ∉ [0, 0x1100, 0x1101] := by
  decide

theorem witness_OnlyHalcodesTouchDevices :
    (Instr.add 1 2 3).isHalcode = false ∧ Instr.rewind.isHalcode = true ∧
    exec .rewind State.reset = .next State.reset :=
  ⟨rfl, rfl, eq_next (by decide)⟩

theorem witness_OnlyStoresWriteMemory :
    exec (.copy 1 2) State.reset = .next State.reset ∧ (Instr.copy 1 2).writesMemory = false ∧
    (Instr.copy 1 2).canFault = false ∧ (Instr.loadi 1 5).canFault = false :=
  ⟨eq_next (by decide), rfl, rfl, rfl⟩

/-- Each tape, the byte in a register of its own and in x[1], where it is the low byte of the ID of tape 2. -/
theorem witness_TapeCopyOfOneByte :
    (let s := given 0 [(0, 0x1100), (1, 0x1100), (2, 0x1FF)]
     (s.tape .tape1).cells = [] ∧ s.reg 0 = (Device.tape .tape1).id ∧ s.reg 1 = (Device.tape .tape1).id ∧
       (s.reg 2).toNat % 256 ≠ 0) ∧
    (let s := given64 0 [(0, 0x1101), (1, 0x1101)]
     (s.tape .tape2).cells = [] ∧ s.reg 0 = (Device.tape .tape2).id ∧ s.reg 1 = (Device.tape .tape2).id ∧
       (s.reg 1).toNat % 256 ≠ 0) := by
  decide

end
end

section
/-!
What an instruction answers, said once for all 209 (10_state.md R37, R41, 60_exceptions.md R500, R509, R510): an
instruction is refused, halts the machine, or completes, which keeps the status or takes a fault.
-/

namespace Sys2Proof.Machine

variable {n : Xlen}

/-! ### Two destinations in one register (10_state.md R37) -/

theorem ne_of_hasDistinctDestinations {i : Instr} {p q : Reg} (h : i.hasDistinctDestinations = true)
    (hi : i.destinations = some (p, q)) : p ≠ q := by
  simpa [Instr.hasDistinctDestinations, hi] using h

theorem destinations_of_not_distinct {i : Instr} (h : i.hasDistinctDestinations = false) :
    ∃ p, i.destinations = some (p, p) := by
  unfold Instr.hasDistinctDestinations at h
  split at h
  next p q hi =>
    have hpq : p = q := by simpa using h
    exact ⟨p, hpq ▸ hi⟩
  next => cases h

theorem writePair_same (s : Mach n) (a : Reg) (va vb : Word n) :
    writePair s a a va vb = .refused .coincidingDestinations := if_pos rfl

theorem popReg_same (s : Mach n) (a : Reg) (w : Width) (e : Extension) :
    popReg s a a w e = .refused .coincidingDestinations := if_pos rfl

theorem divideInto_same (s : Mach n) (a : Reg) (r : Except Fault (Word n × Word n)) :
    divideInto s a a r = .refused .coincidingDestinations := if_pos rfl

/-! ### Operations that complete -/

/-- The operation answers a next machine: with the status it had, or stopped by a fault in exactly the state before the
instruction (60_exceptions.md R500). -/
def Completes (s : Mach n) (r : MachResult n) : Prop :=
  ∃ t, r = .next t ∧ (t.status = s.status ∨ ∃ f, t = s.takeFault (s.pc - 4) f)

theorem completes_next {s t : Mach n} (h : t.status = s.status) : Completes s (.next t) :=
  ⟨t, rfl, .inl h⟩

theorem completes_raiseFault (s : Mach n) (f : Fault) : Completes s (raiseFault s f) :=
  ⟨_, rfl, .inr ⟨f, rfl⟩⟩

/-- The shape of every memory access in Laws.Ops: in range it gives a machine `u`, out of range it faults. -/
theorem completes_of_access {s u : Mach n} {r : MachResult n} {k size : Nat} {f : Fault}
    (h : ∀ t, r = .next t ↔ (k ≤ size ∧ t = u) ∨ (size < k ∧ t = s.takeFault (s.pc - 4) f))
    (hu : u.status = s.status) : Completes s r := by
  rcases le_or_gt k size with hk | hk
  · exact ⟨u, (h u).mpr (.inl ⟨hk, rfl⟩), .inl hu⟩
  · exact ⟨_, (h _).mpr (.inr ⟨hk, rfl⟩), .inr ⟨f, rfl⟩⟩

theorem completes_writeReg (s : Mach n) (a : Reg) (v : Word n) : Completes s (writeReg s a v) :=
  completes_next rfl

theorem completes_jumpIf (s : Mach n) (c : Bool) (p : Word n) : Completes s (jumpIf s c p) :=
  completes_next rfl

theorem completes_skipIf (s : Mach n) (c : Bool) : Completes s (skipIf s c) :=
  completes_next (by cases c <;> rfl)

theorem completes_writePair (s : Mach n) {a b : Reg} (va vb : Word n) (h : a ≠ b) :
    Completes s (writePair s a b va vb) :=
  ⟨_, writePair_next.mpr ⟨h, rfl⟩, .inl rfl⟩

theorem completes_loadReg (s : Mach n) (a : Reg) (p : Word n) (w : Width) (e : Extension) :
    Completes s (loadReg s a p w e) :=
  completes_of_access (fun _ => loadReg_next) rfl

theorem completes_storeValue (s : Mach n) (p : Word n) (w : Width) (v : Word n) : Completes s (storeValue s p w v) :=
  completes_of_access (fun _ => storeValue_next) rfl

theorem completes_pushValue (s : Mach n) (p : Reg) (w : Width) (v : Word n) : Completes s (pushValue s p w v) :=
  completes_of_access (fun _ => pushValue_next) rfl

theorem completes_popReg (s : Mach n) {a p : Reg} (w : Width) (e : Extension) (h : a ≠ p) :
    Completes s (popReg s a p w e) :=
  completes_of_access (fun _ => popReg_next.trans (and_iff_right h)) rfl

theorem completes_popPc (s : Mach n) (p : Reg) : Completes s (popPc s p) :=
  completes_of_access (fun _ => popPc_next) rfl

theorem completes_callTo (s : Mach n) (p : Reg) (target : Word n) : Completes s (callTo s p target) :=
  completes_of_access (fun _ => callTo_next) rfl

theorem completes_branchTo (s : Mach n) (p : Reg) (target : Word n) : Completes s (branchTo s p target) :=
  completes_of_access (fun _ => branchTo_next) rfl

theorem completes_divideInto (s : Mach n) {a b : Reg} (r : Except Fault (Word n × Word n)) (h : a ≠ b) :
    Completes s (divideInto s a b r) := by
  cases r with
  | error f => exact ⟨_, divideInto_next.mpr ⟨h, .inr ⟨f, rfl, rfl⟩⟩, .inr ⟨f, rfl⟩⟩
  | ok qr => exact ⟨_, divideInto_next.mpr ⟨h, .inl ⟨qr, rfl, rfl⟩⟩, .inl rfl⟩

theorem completes_divideHalf (s : Mach n) (a : Reg) (r : Except Fault (Word n × Word n))
    (half : Word n × Word n → Word n) : Completes s (divideHalf s a r half) := by
  cases r with
  | error f => exact completes_raiseFault s f
  | ok qr => exact completes_writeReg s a (half qr)

theorem completes_onTape (s : Mach n) (v : Word n) (f : Tape → Tape) : Completes s (onTape s v f) := by
  unfold onTape
  split
  · exact completes_raiseFault s _
  · exact completes_next rfl
  · exact completes_next (Mach.status_setTape ..)

theorem completes_seekTape (s : Mach n) (v : Word n) (k : Int) : Completes s (seekTape s v k) := by
  unfold seekTape
  split
  · exact completes_raiseFault s _
  · exact completes_next rfl
  · split
    · exact completes_raiseFault s _
    · exact completes_next (Mach.status_setTape ..)

theorem completes_getByte (s : Mach n) (v : Word n) (a : Reg) : Completes s (getByte s v a) := by
  unfold getByte
  split
  · exact completes_raiseFault s _
  · split <;> exact completes_next rfl
  · split
    · split
      · exact completes_next rfl
      · exact completes_next (Mach.status_setTape ..)
    · exact completes_raiseFault s _

theorem completes_putByte (s : Mach n) (v : Word n) (b : Byte) : Completes s (putByte s v b) := by
  unfold putByte
  split
  · exact completes_raiseFault s _
  · exact completes_next rfl
  · split
    · exact completes_next (Mach.status_setTape ..)
    · exact completes_raiseFault s _

/-! ### What `exec` answers -/

theorem exec_halt (v : BitVec 24) (s : Mach n) :
    exec (.halt v) s.toState = .next (s.setStatus .halted).toState := (rfl)

theorem exec_of_isPack {i : Instr} (h : i.isPack = true) (s : State) :
    exec i s = .refused .unspecifiedSemantics := by
  cases i with
  | pack | unpack | pack8Co | pack8uCo | pack16Co | pack16uCo | pack32Co | pack32uCo => rfl
  | _ => cases h

theorem exec_of_coinciding {i : Instr} {p : Reg} (h : i.destinations = some (p, p)) (s : Mach n) :
    exec i s.toState = .refused .coincidingDestinations := by
  cases i with
  | addCo | addCio | adduCo | adduCio | subBo | subBio | subuBo | subuBio | multiply | multiplyu | sort | sortu
  | move =>
    cases h
    exact lift_refused.mpr (writePair_same ..)
  | divide | divideu =>
    cases h
    exact lift_refused.mpr (divideInto_same ..)
  | popr | pop8 | popu8 | pop16 | popu16 | pop32 | popu32 =>
    cases h
    exact lift_refused.mpr (popReg_same ..)
  | _ => cases h

/-- Every instruction but HALT and the refused ones is one operation that completes. -/
theorem exec_completes {i : Instr} (hd : i.hasDistinctDestinations = true) (hp : i.isPack = false)
    (hh : ∀ v, i ≠ .halt v) (s : Mach n) : ∃ r : MachResult n, exec i s.toState = r.lift ∧ Completes s r := by
  cases i with
  | halt v => exact absurd rfl (hh v)
  | pack | unpack | pack8Co | pack8uCo | pack16Co | pack16uCo | pack32Co | pack32uCo => cases hp
  | nop | swap | jsrCoroutine | jump =>
    refine ⟨.next _, rfl, ?_⟩
    exact completes_next rfl
  | addCo | addCio | adduCo | adduCio | subBo | subBio | subuBo | subuBio | multiply | multiplyu | sort | sortu
  | move => exact ⟨_, rfl, completes_writePair s _ _ (ne_of_hasDistinctDestinations hd rfl)⟩
  | divide | divideu => exact ⟨_, rfl, completes_divideInto s _ (ne_of_hasDistinctDestinations hd rfl)⟩
  | popr | pop8 | popu8 | pop16 | popu16 | pop32 | popu32 =>
    exact ⟨_, rfl, completes_popReg s _ _ (ne_of_hasDistinctDestinations hd rfl)⟩
  | div | mod | divu | modu => exact ⟨_, rfl, completes_divideHalf s _ _ _⟩
  | loadx | loadx8 | loadxu8 | loadx16 | loadxu16 | loadx32 | loadxu32
  | load | load8 | loadu8 | load16 | loadu16 | load32 | loadu32
  | loadr | loadr8 | loadru8 | loadr16 | loadru16 | loadr32 | loadru32 =>
    exact ⟨_, rfl, completes_loadReg s _ _ _ _⟩
  | storex | storex8 | storex16 | storex32 | store | store8 | store16 | store32
  | storer | storer8 | storer16 | storer32 => exact ⟨_, rfl, completes_storeValue s _ _ _⟩
  | pushr | push8 | push16 | push32 | pushpc => exact ⟨_, rfl, completes_pushValue s _ _ _⟩
  | ret | poppc => exact ⟨_, rfl, completes_popPc s _⟩
  | call | calli => exact ⟨_, rfl, completes_callTo s _ _⟩
  | branch => exact ⟨_, rfl, completes_branchTo s _ _⟩
  | cmpjumpG | cmpjumpGe | cmpjumpE | cmpjumpNe | cmpjumpLe | cmpjumpL
  | cmpjumpuG | cmpjumpuGe | cmpjumpuLe | cmpjumpuL
  | cmpjumpiG | cmpjumpiGe | cmpjumpiE | cmpjumpiNe | cmpjumpiLe | cmpjumpiL
  | cmpjumpuiG | cmpjumpuiGe | cmpjumpuiLe | cmpjumpuiL
  | jumpC | jumpB | jumpO | jumpG | jumpGe | jumpE | jumpNe | jumpLe | jumpL
  | jumpZ | jumpNz | jumpP | jumpNp => exact ⟨_, rfl, completes_jumpIf s _ _⟩
  | cmpskipG | cmpskipGe | cmpskipE | cmpskipNe | cmpskipLe | cmpskipL
  | cmpskipuG | cmpskipuGe | cmpskipuLe | cmpskipuL
  | cmpskipiG | cmpskipiGe | cmpskipiE | cmpskipiNe | cmpskipiLe | cmpskipiL
  | cmpskipuiG | cmpskipuiGe | cmpskipuiLe | cmpskipuiL => exact ⟨_, rfl, completes_skipIf s _⟩
  | fopenRead | fopenWrite | fclose | rewind => exact ⟨_, rfl, completes_onTape s _ _⟩
  | fseek => exact ⟨_, rfl, completes_seekTape s _ _⟩
  | fgetc => exact ⟨_, rfl, completes_getByte s _ _⟩
  | fputc => exact ⟨_, rfl, completes_putByte s _ _⟩
  -- every other instruction writes one register
  | _ => exact ⟨_, rfl, completes_writeReg s _ _⟩

/-- Everything `exec` can answer: one of the two refusals, the halted machine, or the answer of an operation that
completes. -/
theorem exec_cases (i : Instr) (s : Mach n) :
    (i.hasDistinctDestinations = false ∧ exec i s.toState = .refused .coincidingDestinations) ∨
      (i.hasDistinctDestinations = true ∧
        ((i.isPack = true ∧ exec i s.toState = .refused .unspecifiedSemantics) ∨
          (∃ v, i = .halt v ∧ exec i s.toState = .next (s.setStatus .halted).toState) ∨
          ∃ t : Mach n, exec i s.toState = .next t.toState ∧
            (t.status = s.status ∨ ∃ f, t = s.takeFault (s.pc - 4) f))) := by
  cases hd : i.hasDistinctDestinations with
  | false =>
    obtain ⟨p, hi⟩ := destinations_of_not_distinct hd
    exact .inl ⟨rfl, exec_of_coinciding hi s⟩
  | true =>
    refine .inr ⟨rfl, ?_⟩
    cases hp : i.isPack with
    | true => exact .inl ⟨rfl, exec_of_isPack hp s.toState⟩
    | false =>
      by_cases hh : ∃ v, i = .halt v
      · obtain ⟨v, rfl⟩ := hh
        exact .inr (.inl ⟨v, rfl, exec_halt v s⟩)
      · obtain ⟨r, hr, t, rfl, ht⟩ := exec_completes hd hp (not_exists.mp hh) s
        exact .inr (.inr ⟨t, hr, ht⟩)

/-- Settles O34: the four answers of `exec_cases` are told apart by the outcome and by the reason of a refusal. -/
theorem coincidingDestinationsRefused : Obligations.CoincidingDestinationsRefused := by
  intro i n s
  rcases exec_cases i s with ⟨hd, h⟩ | ⟨hd, ⟨hp, h⟩ | ⟨v, -, h⟩ | ⟨t, h, -⟩⟩
  · simp [h, hd]
  · simp [h, hd, hp]
  · simp [h, hd]
  · simp [h, hd]

/-! ### The step (70_reset_and_hazards.md R546) -/

theorem step_of_fetchDecode_ok {s : Mach n} {i : Instr} (hs : s.status = .running) (hi : s.fetchDecode = .ok i) :
    step s.toState = exec i s.advance.toState := by
  simp only [step, hs, hi]

/-- Moving pc past the word leaves everything else as it is (10_state.md R33). -/
theorem keeps_advance (s : Mach n) : OnlyRegs s s.advance [] :=
  ⟨fun _ _ => rfl, ⟨rfl, fun _ => rfl⟩, ⟨rfl, rfl, rfl⟩, rfl⟩

theorem pc_advance_eq (s : Mach n) : s.advance.pc = wordOf (uInt s.pc + 4) := by
  rw [wordOf_add, wordOf_uInt, wordOf_four, Mach.pc_advance]

/-- Settles O6: the fetch succeeds, so the step is the meaning of what it fetched, and moving pc is all that precedes it. -/
theorem stepRunsDecodedInstruction : Obligations.StepRunsDecodedInstruction := by
  intro n s i hs hr hi
  exact ⟨step_of_fetchDecode_ok hs (fetchDecode_ok.mpr ⟨hr, hi⟩), pc_advance_eq s, rfl, keeps_advance s⟩

/-- A next state of a running machine's instruction: running, halted by HALT, or faulted. -/
theorem status_of_exec_next {i : Instr} {s : Mach n} {t : State} (hs : s.status = .running)
    (h : exec i s.toState = .next t) :
    t.mach.status = .running ∨ (t.mach.status = .halted ∧ ∃ v, i = .halt v) ∨ ∃ f, t.mach.status = .faulted f := by
  rcases exec_cases i s with ⟨-, h'⟩ | ⟨-, ⟨-, h'⟩ | ⟨v, hv, h'⟩ | ⟨u, h', hu | ⟨f, rfl⟩⟩⟩ <;>
    cases h'.symm.trans h
  · exact .inr (.inl ⟨rfl, v, hv⟩)
  · exact .inl (hu.trans hs)
  · exact .inr (.inr ⟨f, rfl⟩)

/-- Settles O9: by `step_next`, a running machine either runs the instruction it fetched or takes the fetch's fault. -/
theorem finalStateIsUnchanged : Obligations.FinalStateIsUnchanged := by
  refine ⟨rfl, fun s hs => step_next.mpr (.inl ⟨hs, rfl⟩), fun n s v => ⟨_, exec_halt v s, rfl⟩, fun s t hs ht => ?_⟩
  rcases step_next.mp ht with ⟨hn, -⟩ | ⟨-, i, hi, he⟩ | ⟨-, f, -, rfl⟩
  · exact absurd hs hn
  · obtain ⟨-, hw⟩ := fetchDecode_ok.mp hi
    rcases status_of_exec_next (s := s.mach.advance) hs he with h | ⟨h, v, rfl⟩ | h
    · exact .inl h
    · exact .inr (.inl ⟨h, v, hw⟩)
    · exact .inr (.inr h)
  · exact .inr (.inr ⟨f, rfl⟩)

end Sys2Proof.Machine
end

section
/-!
What an instruction can do to memory and to the run status, said once for all 209 (20_memory.md R65, 60_exceptions.md
R515), and what follows for every step; then fetches, addresses and accesses of mixed widths (20_memory.md R62 to R67).
-/

namespace Sys2Proof.Machine

variable {n : Xlen}

/-! ### The footprint of an operation -/

/-- What an operation does to memory and status: it writes at most the bytes of one access in range, and none unless
it may write (`w`); it ends in no new fault unless it may fault (`f`). -/
structure Footprint (w f : Bool) (s t : Mach n) : Prop where
  oneAccess : ∃ a k v, a + k ≤ s.mem.size ∧ t.mem = s.mem.writeBE a k v
  mem_eq : w = false → t.mem = s.mem
  noFault : f = false → ∀ g, t.status = .faulted g → s.status = .faulted g

/-- Every machine an operation answers is within a footprint. -/
def StaysWithin (w f : Bool) (s : Mach n) (r : MachResult n) : Prop :=
  ∀ t, r = .next t → Footprint w f s t

section footprints

variable {w f : Bool} {s t u : Mach n} {r : MachResult n}

/-- Memory as it was is memory after an access of no bytes. -/
theorem Footprint.of_mem_eq (hm : t.mem = s.mem)
    (hs : f = false → ∀ g, t.status = .faulted g → s.status = .faulted g) : Footprint w f s t :=
  ⟨⟨0, 0, 0, Nat.zero_le _, hm⟩, fun _ => hm, hs⟩

theorem Footprint.of_keeps (hm : t.mem = s.mem) (hs : t.status = s.status) : Footprint w f s t :=
  .of_mem_eq hm fun _ _ h => hs ▸ h

theorem Footprint.of_takeFault (s : Mach n) (p : Word n) (g : Fault) : Footprint w true s (s.takeFault p g) :=
  .of_mem_eq rfl nofun

theorem Footprint.of_store {p v : Word n} {x : Width} (hp : p.toNat + x.bytes n ≤ s.mem.size)
    (hm : t.mem = (s.store p x v).mem) (hs : t.status = s.status) : Footprint true f s t :=
  ⟨⟨_, _, _, hp, hm⟩, nofun, fun _ _ h => hs ▸ h⟩

theorem staysWithin_next (h : Footprint w f s t) : StaysWithin w f s (.next t) := by
  rintro _ ⟨⟩
  exact h

theorem staysWithin_refused (x : Refusal) : StaysWithin w f s (.refused x) := nofun

theorem staysWithin_raiseFault (s : Mach n) (g : Fault) : StaysWithin w true s (raiseFault s g) :=
  staysWithin_next (.of_takeFault ..)

/-- The shape of every memory access in Laws.Ops, as in `completes_of_access`. -/
theorem staysWithin_of_access {k size : Nat} {g : Fault}
    (h : ∀ t, r = .next t → (k ≤ size ∧ t = u) ∨ (size < k ∧ t = s.takeFault (s.pc - 4) g))
    (hu : k ≤ size → Footprint w true s u) : StaysWithin w true s r := by
  intro t ht
  rcases h t ht with ⟨hk, rfl⟩ | ⟨-, rfl⟩
  · exact hu hk
  · exact .of_takeFault ..

end footprints

/-! ### The footprint of each shared operation -/

theorem staysWithin_writeReg (s : Mach n) (a : Reg) (v : Word n) : StaysWithin false false s (writeReg s a v) :=
  staysWithin_next (.of_keeps rfl rfl)

theorem staysWithin_writePair (s : Mach n) (a b : Reg) (va vb : Word n) :
    StaysWithin false false s (writePair s a b va vb) := by
  intro t ht
  obtain ⟨-, rfl⟩ := writePair_next.mp ht
  exact .of_keeps rfl rfl

theorem staysWithin_jumpIf (s : Mach n) (c : Bool) (p : Word n) : StaysWithin false false s (jumpIf s c p) :=
  staysWithin_next (.of_keeps rfl rfl)

theorem staysWithin_skipIf (s : Mach n) (c : Bool) : StaysWithin false false s (skipIf s c) :=
  staysWithin_next (by cases c <;> exact .of_keeps rfl rfl)

theorem staysWithin_loadReg (s : Mach n) (a : Reg) (p : Word n) (w : Width) (e : Extension) :
    StaysWithin false true s (loadReg s a p w e) :=
  staysWithin_of_access (fun _ => loadReg_next.mp) fun _ => .of_keeps rfl rfl

theorem staysWithin_popPc (s : Mach n) (p : Reg) : StaysWithin false true s (popPc s p) :=
  staysWithin_of_access (fun _ => popPc_next.mp) fun _ => .of_keeps rfl rfl

theorem staysWithin_storeValue (s : Mach n) (p : Word n) (w : Width) (v : Word n) :
    StaysWithin true true s (storeValue s p w v) :=
  staysWithin_of_access (fun _ => storeValue_next.mp) fun h => .of_store h rfl rfl

theorem staysWithin_pushValue (s : Mach n) (p : Reg) (w : Width) (v : Word n) :
    StaysWithin true true s (pushValue s p w v) :=
  staysWithin_of_access (fun _ => pushValue_next.mp) fun h => .of_store h rfl rfl

theorem staysWithin_popReg (s : Mach n) (a p : Reg) (w : Width) (e : Extension) :
    StaysWithin true true s (popReg s a p w e) :=
  staysWithin_of_access (fun _ h => (popReg_next.mp h).2) fun h => .of_store h rfl rfl

theorem staysWithin_callTo (s : Mach n) (p : Reg) (target : Word n) : StaysWithin true true s (callTo s p target) :=
  staysWithin_of_access (fun _ => callTo_next.mp) fun h => .of_store (x := .register) h rfl rfl

theorem staysWithin_branchTo (s : Mach n) (p : Reg) (target : Word n) :
    StaysWithin true true s (branchTo s p target) :=
  staysWithin_of_access (fun _ => branchTo_next.mp) fun h => .of_store (x := .register) h rfl rfl

theorem staysWithin_divideInto (s : Mach n) (a b : Reg) (r : Except Fault (Word n × Word n)) :
    StaysWithin false true s (divideInto s a b r) := by
  intro t ht
  rcases divideInto_next.mp ht with ⟨-, ⟨qr, -, rfl⟩ | ⟨f, -, rfl⟩⟩
  · exact .of_keeps rfl rfl
  · exact .of_takeFault ..

theorem staysWithin_divideHalf (s : Mach n) (a : Reg) (r : Except Fault (Word n × Word n))
    (half : Word n × Word n → Word n) : StaysWithin false true s (divideHalf s a r half) := by
  intro t ht
  rcases divideHalf_next.mp ht with ⟨qr, -, rfl⟩ | ⟨f, -, rfl⟩
  · exact .of_keeps rfl rfl
  · exact .of_takeFault ..

theorem staysWithin_onTape (s : Mach n) (v : Word n) (f : Tape → Tape) : StaysWithin false true s (onTape s v f) := by
  intro t ht
  rcases onTape_next.mp ht with ⟨-, rfl⟩ | ⟨-, rfl⟩ | ⟨d, -, rfl⟩
  · exact .of_takeFault ..
  · exact .of_keeps rfl rfl
  · exact .of_keeps (by simp) (by simp)

theorem staysWithin_seekTape (s : Mach n) (v : Word n) (k : Int) : StaysWithin false true s (seekTape s v k) := by
  intro t ht
  rcases seekTape_next.mp ht with ⟨-, rfl⟩ | ⟨-, rfl⟩ | ⟨d, -, ⟨-, rfl⟩ | ⟨-, rfl⟩⟩
  · exact .of_takeFault ..
  · exact .of_keeps rfl rfl
  · exact .of_takeFault ..
  · exact .of_keeps (by simp) (by simp)

theorem staysWithin_getByte (s : Mach n) (v : Word n) (a : Reg) : StaysWithin false true s (getByte s v a) := by
  intro t ht
  rcases getByte_next.mp ht with ⟨-, rfl⟩ | ⟨-, -, rfl⟩ | ⟨b, rest, -, -, rfl⟩ |
    ⟨d, -, ⟨-, rfl⟩ | ⟨-, -, rfl⟩ | ⟨b, -, -, rfl⟩⟩
  · exact .of_takeFault ..
  · exact .of_keeps rfl rfl
  · exact .of_keeps rfl rfl
  · exact .of_takeFault ..
  · exact .of_keeps rfl rfl
  · exact .of_keeps (by simp) (by simp)

theorem staysWithin_putByte (s : Mach n) (v : Word n) (b : Byte) : StaysWithin false true s (putByte s v b) := by
  intro t ht
  rcases putByte_next.mp ht with ⟨-, rfl⟩ | ⟨-, rfl⟩ | ⟨d, -, ⟨-, rfl⟩ | ⟨-, rfl⟩⟩
  · exact .of_takeFault ..
  · exact .of_keeps rfl rfl
  · exact .of_takeFault ..
  · exact .of_keeps (by simp) (by simp)

/-! ### The footprint of each instruction -/

/-- Every instruction is one operation within the footprint that its class gives it. -/
theorem exec_staysWithin (i : Instr) (s : Mach n) :
    ∃ r : MachResult n, exec i s.toState = r.lift ∧ StaysWithin i.writesMemory i.canFault s r := by
  cases i with
  | halt => exact ⟨.next (s.setStatus .halted), rfl, staysWithin_next (.of_mem_eq rfl nofun)⟩
  | pack | unpack | pack8Co | pack8uCo | pack16Co | pack16uCo | pack32Co | pack32uCo =>
    exact ⟨.refused .unspecifiedSemantics, exec_of_isPack rfl _, staysWithin_refused _⟩
  | nop | swap | jsrCoroutine | jump => exact ⟨.next _, rfl, staysWithin_next (.of_keeps rfl rfl)⟩
  | addCo | addCio | adduCo | adduCio | subBo | subBio | subuBo | subuBio | multiply | multiplyu | sort | sortu
  | move => exact ⟨_, rfl, staysWithin_writePair s _ _ _ _⟩
  | divide | divideu => exact ⟨_, rfl, staysWithin_divideInto s _ _ _⟩
  | popr | pop8 | popu8 | pop16 | popu16 | pop32 | popu32 => exact ⟨_, rfl, staysWithin_popReg s _ _ _ _⟩
  | div | mod | divu | modu => exact ⟨_, rfl, staysWithin_divideHalf s _ _ _⟩
  | loadx | loadx8 | loadxu8 | loadx16 | loadxu16 | loadx32 | loadxu32
  | load | load8 | loadu8 | load16 | loadu16 | load32 | loadu32
  | loadr | loadr8 | loadru8 | loadr16 | loadru16 | loadr32 | loadru32 =>
    exact ⟨_, rfl, staysWithin_loadReg s _ _ _ _⟩
  | storex | storex8 | storex16 | storex32 | store | store8 | store16 | store32
  | storer | storer8 | storer16 | storer32 => exact ⟨_, rfl, staysWithin_storeValue s _ _ _⟩
  | pushr | push8 | push16 | push32 | pushpc => exact ⟨_, rfl, staysWithin_pushValue s _ _ _⟩
  | ret | poppc => exact ⟨_, rfl, staysWithin_popPc s _⟩
  | call | calli => exact ⟨_, rfl, staysWithin_callTo s _ _⟩
  | branch => exact ⟨_, rfl, staysWithin_branchTo s _ _⟩
  | cmpjumpG | cmpjumpGe | cmpjumpE | cmpjumpNe | cmpjumpLe | cmpjumpL
  | cmpjumpuG | cmpjumpuGe | cmpjumpuLe | cmpjumpuL
  | cmpjumpiG | cmpjumpiGe | cmpjumpiE | cmpjumpiNe | cmpjumpiLe | cmpjumpiL
  | cmpjumpuiG | cmpjumpuiGe | cmpjumpuiLe | cmpjumpuiL
  | jumpC | jumpB | jumpO | jumpG | jumpGe | jumpE | jumpNe | jumpLe | jumpL
  | jumpZ | jumpNz | jumpP | jumpNp => exact ⟨_, rfl, staysWithin_jumpIf s _ _⟩
  | cmpskipG | cmpskipGe | cmpskipE | cmpskipNe | cmpskipLe | cmpskipL
  | cmpskipuG | cmpskipuGe | cmpskipuLe | cmpskipuL
  | cmpskipiG | cmpskipiGe | cmpskipiE | cmpskipiNe | cmpskipiLe | cmpskipiL
  | cmpskipuiG | cmpskipuiGe | cmpskipuiLe | cmpskipuiL => exact ⟨_, rfl, staysWithin_skipIf s _⟩
  | fopenRead | fopenWrite | fclose | rewind => exact ⟨_, rfl, staysWithin_onTape s _ _⟩
  | fseek => exact ⟨_, rfl, staysWithin_seekTape s _ _⟩
  | fgetc => exact ⟨_, rfl, staysWithin_getByte s _ _⟩
  | fputc => exact ⟨_, rfl, staysWithin_putByte s _ _⟩
  -- every other instruction writes one register
  | _ => exact ⟨_, rfl, staysWithin_writeReg s _ _⟩

/-- A next state of an instruction has the machine's XLEN and is within the instruction's footprint. -/
theorem footprint_of_exec_next {i : Instr} {s : Mach n} {t : State} (h : exec i s.toState = .next t) :
    ∃ u : Mach n, t = u.toState ∧ Footprint i.writesMemory i.canFault s u := by
  obtain ⟨r, hr, hw⟩ := exec_staysWithin i s
  obtain ⟨u, rfl, rfl⟩ := lift_next.mp (hr.symm.trans h)
  exact ⟨u, rfl, hw u rfl⟩

/-- Settles O57: both clauses are read off the footprint of the instruction. -/
theorem onlyStoresWriteMemory : Obligations.OnlyStoresWriteMemory := by
  intro i s t h
  obtain ⟨u, rfl, hu⟩ := footprint_of_exec_next (s := s.mach) h
  exact ⟨hu.mem_eq, hu.noFault⟩

/-! ### The invariant of memory (20_memory.md R60, 00_scope.md R6) -/

theorem Footprint.size_eq {w f : Bool} {s t : Mach n} (h : Footprint w f s t) : t.mem.size = s.mem.size := by
  obtain ⟨a, k, v, -, hm⟩ := h.oneAccess
  rw [hm, Memory.size_writeBE]

/-- The one access lies inside memory, so it keeps the canonical form. -/
theorem Footprint.wf {w f : Bool} {s t : Mach n} (h : Footprint w f s t) (hs : s.mem.wf = true) :
    t.mem.wf = true := by
  obtain ⟨a, k, v, ha, hm⟩ := h.oneAccess
  rw [hm]
  exact s.mem.wf_writeBE a k v ha hs

theorem Footprint.inv {w f : Bool} {s t : Mach n} (h : Footprint w f s t) (hs : s.toState.Inv) : t.toState.Inv :=
  ⟨h.wf hs.1, h.size_eq.trans_le hs.2⟩

/-- A step to a next state keeps XLEN and writes at most one access in range, whatever it does. -/
theorem footprint_of_step_next {s : Mach n} {t : State} (h : step s.toState = .next t) :
    ∃ u : Mach n, t = u.toState ∧ Footprint true true s u := by
  rcases step_next.mp h with ⟨-, rfl⟩ | ⟨-, i, -, hi⟩ | ⟨-, f, -, rfl⟩
  · exact ⟨s, rfl, .of_keeps rfl rfl⟩
  · obtain ⟨u, rfl, hu⟩ := footprint_of_exec_next hi
    exact ⟨u, rfl, hu.oneAccess, nofun, nofun⟩
  · exact ⟨_, rfl, .of_takeFault ..⟩

/-- Settles O12: a step is within a footprint, and every footprint keeps the invariant. -/
theorem invariantKept : Obligations.InvariantKept := by
  intro s t hs h
  obtain ⟨u, rfl, hu⟩ := footprint_of_step_next (s := s.mach) h
  exact ⟨hu.inv hs, hu.size_eq, rfl⟩

/-! ### The fetch (20_memory.md R62, R67, R73) -/

/-- Settles O8: the fetch answers its own fault, and pc already is at the instruction. -/
theorem fetchOutOfRangeFaults : Obligations.FetchOutOfRangeFaults := by
  intro n s hs hr
  have hf : s.fetchDecode = .error (.memoryOutOfRange s.pc.toNat 4) := fetchDecode_error.mpr (.inl ⟨hr, rfl⟩)
  exact step_next.mpr (.inr (.inr ⟨hs, _, hf, rfl⟩))

theorem toNat_fetchWord (s : Mach n) : s.fetchWord.toNat = s.mem.readBE s.pc.toNat 4 := by
  rw [Mach.fetchWord, BitVec.toNat_ofNat]
  exact Nat.mod_eq_of_lt (s.mem.readBE_lt s.pc.toNat 4)

/-- A load in range is a register write of the datum read. -/
theorem loadReg_of_inRange {s : Mach n} {p : Word n} {w : Width} (h : p.toNat + w.bytes n ≤ s.mem.size) (a : Reg)
    (e : Extension) : loadReg s a p w e = writeReg s a (s.load p w e) :=
  if_pos (inRange_iff.mpr h)

/-- The 32-bit load without sign reads at pc what the fetch reads. -/
theorem load_pc_eq_fetchWord (s : Mach n) : s.load s.pc .bits32 .zero = wordOf s.fetchWord.toNat := by
  rw [Mach.load_eq, toNat_fetchWord, Memory.readBE_eq]
  rfl

theorem setsReg_loadxu32_pc {s : Mach n} {b c : Reg} (hp : s.indexed b c = s.pc)
    (hr : s.pc.toNat + 4 ≤ s.mem.size) (a : Reg) :
    SetsReg (.loadxu32 a b c) s a (wordOf s.fetchWord.toNat) := by
  refine setsReg_of ?_
  calc exec (.loadxu32 a b c) s.toState
      = (loadReg s a (s.indexed b c) .bits32 .zero).lift := rfl
    _ = (loadReg s a s.pc .bits32 .zero).lift := by rw [hp]
    _ = (writeReg s a (wordOf s.fetchWord.toNat)).lift := by
        rw [loadReg_of_inRange hr, load_pc_eq_fetchWord]

theorem relative_zero (s : Mach n) : s.relative 0 = s.pc := by
  rw [Mach.relative_eq, show sImm 0 = 0 from rfl, add_zero, wordOf_uInt]

/-- A store over the word at pc is what the next fetch finds (R73). -/
theorem toNat_fetchWord_store_pc (s : Mach n) (v : Word n) :
    (s.store s.pc .bits32 v).fetchWord.toNat = v.toNat % 2 ^ 32 := by
  rw [toNat_fetchWord, Mach.mem_store, Mach.pc_store]
  exact Memory.readBE_writeBE ..

theorem exec_storer32_zero {s : Mach n} (hr : s.pc.toNat + 4 ≤ s.mem.size) (a : Reg) :
    exec (.storer32 a 0) s.toState = .next (s.store s.pc .bits32 (s.reg a)).toState := by
  have hstore : storeValue s s.pc .bits32 (s.reg a) = .next (s.store s.pc .bits32 (s.reg a)) :=
    storeValue_next.mpr (.inl ⟨hr, rfl⟩)
  calc exec (.storer32 a 0) s.toState
      = (storeValue s (s.relative 0) .bits32 (s.reg a)).lift := rfl
    _ = .next (s.store s.pc .bits32 (s.reg a)).toState := by rw [relative_zero, hstore]; rfl

/-- Settles O7: the fetch is the big-endian read of four bytes at pc that the load and the store use too. -/
theorem fetchReadsMemory : Obligations.FetchReadsMemory := by
  intro n
  refine ⟨fun s => ?_, fun s a b c hp hr => setsReg_loadxu32_pc hp hr a, fun s a hr => ?_⟩
  · rw [toNat_fetchWord]
    simp [Memory.readBE, add_assoc]
  · exact ⟨_, exec_storer32_zero hr a, rfl, toNat_fetchWord_store_pc s (s.reg a)⟩

/-! ### Addresses and widths (20_memory.md R63, R66) -/

/-- Settles O16: each address is the pattern of the integer sum, by the lemmas of Laws.Values. -/
theorem effectiveAddresses : Obligations.EffectiveAddresses := fun _ =>
  ⟨Mach.indexed_eq, Mach.based_eq, Mach.relative_eq, Mach.topAddress_eq, fun _ _ _ => inRange_iff⟩

/-- Any byte after a write of k bytes: the written one inside the write, the old one outside it. -/
theorem Memory.toNat_get_writeBE (m : Memory) (a k v b : Nat) :
    ((m.writeBE a k v).get b).toNat =
      if a ≤ b ∧ b < a + k then v / 256 ^ (k - 1 - (b - a)) % 256 else (m.get b).toNat := by
  split
  next h =>
    have hj := holdsBytes_writeBE m a k v (b - a) (by omega)
    rwa [Nat.add_sub_cancel' h.1] at hj
  next h => rw [m.get_writeBE_outside a k v b (by omega)]

/-- Settles O17: a read is the sum of its bytes (`readBE_eq`), each of which `toNat_get_writeBE` gives. -/
theorem mixedWidthAccess : Obligations.MixedWidthAccess := by
  intro m a k v b j
  refine ⟨?_, m.readBE_writeBE a k v⟩
  rw [Memory.readBE_eq, bytesValue]
  simp only [Memory.toNat_get_writeBE]

end Sys2Proof.Machine
end

section
/-!
The three accounts of an encoding agree: the decoder, the encoder and the opcode table (30_encoding.md R92 to R115).
A word is laid out for an instruction when it is a word of one of the formats and the format's list of XOP values gives
the instruction; the decoder reads exactly the words laid out so, the encoder writes them, and the rows match them.
-/

namespace Sys2Proof

open Laws

/-! ### The six 1OPI groups as one (30_encoding.md R98, R105) -/

/-- The XOP digits of the 1OPI groups, by opcode byte. -/
def decode1OPI (opcode xop : Nat) (a : Reg) (imm : Imm16) : Option Instr :=
  match opcode with
  | 0x2C => decodeJumpIf xop a imm
  | 0x2D => decodeBranchImm xop a imm
  | 0x2E => decodeLoadRel xop a imm
  | 0x2F => decodeStoreRel xop a imm
  | 0xA0 => decodeSkipSigned xop a imm
  | 0xA1 => decodeSkipUnsigned xop a imm
  | _ => none

/-!
### The entries of each list of XOP values

An entry's selector fits its field, the encoder writes the entry in the list's format, the opcode table has it as one
row, and the selector alone says that it is an entry: other operands give an instruction of the same row.
-/

theorem decode4OP_some {x : Nat} {a b c d : Reg} {i : Instr} (h : decode4OP x a b c d = some i) :
    x < 256 ∧ encode i = word4OP x a b c d ∧ tableRow i = (0x01000000 + x * 0x10000, 0xFFFF0000) ∧
      ∀ a' b' c' d', ∃ j, decode4OP x a' b' c' d' = some j ∧ tableRow j = tableRow i := by
  unfold decode4OP at h
  split at h <;> cases h <;> exact ⟨by decide, rfl, rfl, fun _ _ _ _ => ⟨_, rfl, rfl⟩⟩

theorem decode3OP_some {x : Nat} {a b c : Reg} {i : Instr} (h : decode3OP x a b c = some i) :
    x < 4096 ∧ encode i = word3OP x a b c ∧ tableRow i = (0x05000000 + x * 0x1000, 0xFFFFF000) ∧
      ∀ a' b' c', ∃ j, decode3OP x a' b' c' = some j ∧ tableRow j = tableRow i := by
  unfold decode3OP at h
  split at h <;> cases h <;> exact ⟨by decide, rfl, rfl, fun _ _ _ => ⟨_, rfl, rfl⟩⟩

theorem decode2OP_some {x : Nat} {a b : Reg} {i : Instr} (h : decode2OP x a b = some i) :
    x < 65536 ∧ encode i = word2OP x a b ∧ tableRow i = (0x09000000 + x * 0x100, 0xFFFFFF00) ∧
      ∀ a' b', ∃ j, decode2OP x a' b' = some j ∧ tableRow j = tableRow i := by
  unfold decode2OP at h
  split at h <;> cases h <;> exact ⟨by decide, rfl, rfl, fun _ _ => ⟨_, rfl, rfl⟩⟩

theorem decode1OP_some {x : Nat} {a : Reg} {i : Instr} (h : decode1OP x a = some i) :
    x < 1048576 ∧ encode i = word1OP x a ∧ tableRow i = (0x0D000000 + x * 0x10, 0xFFFFFFF0) ∧
      ∀ a', ∃ j, decode1OP x a' = some j ∧ tableRow j = tableRow i := by
  unfold decode1OP at h
  split at h <;> cases h <;> exact ⟨by decide, rfl, rfl, fun _ => ⟨_, rfl, rfl⟩⟩

theorem decode2OPI_some {opcode : Nat} {a b : Reg} {imm : Imm16} {i : Instr}
    (h : decode2OPI opcode a b imm = some i) :
    (opcode < 256 ∧
      opcode ∉ [0x00, 0x01, 0x05, 0x09, 0x0D, 0x2C, 0x2D, 0x2E, 0x2F, 0x3C, 0x42, 0xA0, 0xA1, 0xFF]) ∧
      encode i = word2OPI opcode a b imm ∧ tableRow i = (opcode * 0x1000000, 0xFF000000) ∧
      ∀ a' b' imm', ∃ j, decode2OPI opcode a' b' imm' = some j ∧ tableRow j = tableRow i := by
  unfold decode2OPI at h
  split at h <;> cases h <;> exact ⟨by decide, rfl, rfl, fun _ _ _ => ⟨_, rfl, rfl⟩⟩

theorem decode1OPI_some {opcode x : Nat} {a : Reg} {imm : Imm16} {i : Instr}
    (h : decode1OPI opcode x a imm = some i) :
    (opcode < 256 ∧ x < 16) ∧ encode i = word1OPI opcode x a imm ∧
      tableRow i = (opcode * 0x1000000 + x * 0x100000, 0xFFF00000) ∧
      ∀ a' imm', ∃ j, decode1OPI opcode x a' imm' = some j ∧ tableRow j = tableRow i := by
  unfold decode1OPI decodeJumpIf decodeBranchImm decodeLoadRel decodeStoreRel decodeSkipSigned decodeSkipUnsigned at h
  split at h
  case h_7 => cases h
  all_goals split at h <;> cases h <;> exact ⟨by decide, rfl, rfl, fun _ _ => ⟨_, rfl, rfl⟩⟩

theorem decodeHalcode_some {callId : Nat} {i : Instr} (h : decodeHalcode callId = some i) :
    callId < 16777216 ∧ encode i = wordHalcode callId ∧ tableRow i = (0x42000000 + callId, 0xFFFFFFFF) := by
  unfold decodeHalcode at h
  split at h <;> cases h <;> exact ⟨by decide, rfl, rfl⟩

/-! ### Words laid out for an instruction -/

/-- The word is in one of the formats of R92 to R100, and the format's list gives the instruction. -/
inductive LaidOut : InstrWord → Instr → Prop where
  | op4 {x a b c d i} (h : decode4OP x a b c d = some i) : LaidOut (word4OP x a b c d) i
  | op3 {x a b c i} (h : decode3OP x a b c = some i) : LaidOut (word3OP x a b c) i
  | op2 {x a b i} (h : decode2OP x a b = some i) : LaidOut (word2OP x a b) i
  | op1 {x a i} (h : decode1OP x a = some i) : LaidOut (word1OP x a) i
  | op2i {opcode a b imm i} (h : decode2OPI opcode a b imm = some i) : LaidOut (word2OPI opcode a b imm) i
  | op1i {opcode x a imm i} (h : decode1OPI opcode x a imm = some i) : LaidOut (word1OPI opcode x a imm) i
  | halcode {callId i} (h : decodeHalcode callId = some i) : LaidOut (wordHalcode callId) i
  | jump (imm) : LaidOut (word0OPI imm) (.jump imm)
  | nop (ignored) : LaidOut (word0OP 0x00 ignored) (.nop ignored)
  | halt (ignored) : LaidOut (word0OP 0xFF ignored) (.halt ignored)

/-- Every instruction has a word laid out for it, the one the encoder writes. -/
theorem laidOut_encode (i : Instr) : LaidOut (encode i) i := by
  cases i with
  | addCi | addCo | addCio | adduCi | adduCo | adduCio | subBi | subBo | subBio | subuBi | subuBo | subuBio
  | multiply | multiplyu | divide | divideu | mux | nmux | sort | sortu =>
    exact .op4 rfl
  | add | addu | sub | subu | cmp | cmpu | mul | mulh | mulu | muluh | div | mod | divu | modu | max | maxu | min
  | minu | pack | unpack | pack8Co | pack8uCo | pack16Co | pack16uCo | pack32Co | pack32uCo | and | or | xor
  | nand | nor | xnor | mpq | lpq | cpq | bpq | sal | sar | sl0 | sr0 | sl1 | sr1 | rol | ror | loadx | loadx8
  | loadxu8 | loadx16 | loadxu16 | loadx32 | loadxu32 | storex | storex8 | storex16 | storex32 | cmpjumpG
  | cmpjumpGe | cmpjumpE | cmpjumpNe | cmpjumpLe | cmpjumpL | cmpjumpuG | cmpjumpuGe | cmpjumpuLe | cmpjumpuL =>
    exact .op3 rfl
  | neg | abs | nabs | swap | copy | move | not | branch | call | pushr | push8 | push16 | push32 | popr | pop8
  | popu8 | pop16 | popu16 | pop32 | popu32 | cmpskipG | cmpskipGe | cmpskipE | cmpskipNe | cmpskipLe | cmpskipL
  | cmpskipuG | cmpskipuGe | cmpskipuLe | cmpskipuL =>
    exact .op2 rfl
  | readpc | readscid | setFalse | setTrue | jsrCoroutine | ret | pushpc | poppc =>
    exact .op1 rfl
  | addi | addui | subi | subui | cmpi | load | load8 | loadu8 | load16 | loadu16 | load32 | loadu32 | cmpui
  | store | store8 | store16 | store32 | andi | ori | xori | nandi | nori | xnori | cmpjumpiG | cmpjumpiGe
  | cmpjumpiE | cmpjumpiNe | cmpjumpiLe | cmpjumpiL | cmpjumpuiG | cmpjumpuiGe | cmpjumpuiLe | cmpjumpuiL =>
    exact .op2i rfl
  | jumpC | jumpB | jumpO | jumpG | jumpGe | jumpE | jumpNe | jumpLe | jumpL | jumpZ | jumpNz | jumpP | jumpNp
  | calli | loadi | loadui | sali | sari | sl0i | sr0i | sl1i | sr1i | loadr | loadr8 | loadru8 | loadr16
  | loadru16 | loadr32 | loadru32 | storer | storer8 | storer16 | storer32 | cmpskipiG | cmpskipiGe | cmpskipiE
  | cmpskipiNe | cmpskipiLe | cmpskipiL | cmpskipuiG | cmpskipuiGe | cmpskipuiLe | cmpskipuiL =>
    exact .op1i rfl
  | fopenRead | fopenWrite | fclose | rewind | fseek | fgetc | fputc =>
    exact .halcode rfl
  | jump imm => exact .jump imm
  | nop ignored => exact .nop ignored
  | halt ignored => exact .halt ignored

/-- No other word is laid out for it. -/
theorem LaidOut.encode_eq {w : InstrWord} {i : Instr} (h : LaidOut w i) : encode i = w := by
  cases h with
  | op4 h => obtain ⟨-, hw, -⟩ := decode4OP_some h; exact hw
  | op3 h => obtain ⟨-, hw, -⟩ := decode3OP_some h; exact hw
  | op2 h => obtain ⟨-, hw, -⟩ := decode2OP_some h; exact hw
  | op1 h => obtain ⟨-, hw, -⟩ := decode1OP_some h; exact hw
  | op2i h => obtain ⟨-, hw, -⟩ := decode2OPI_some h; exact hw
  | op1i h => obtain ⟨-, hw, -⟩ := decode1OPI_some h; exact hw
  | halcode h => obtain ⟨-, hw, -⟩ := decodeHalcode_some h; exact hw
  | jump | nop | halt => rfl

theorem LaidOut.of_eq {w w' : InstrWord} {i : Instr} (h : LaidOut w' i) (hw : w' = w) : LaidOut w i := hw ▸ h

/-! ### The decoder reads exactly the words laid out for an instruction -/

/-- Under an opcode byte of a 1OPI group the decoder is that group's list. -/
theorem decodeRow_word1OPI {opcode x : Nat} {a : Reg} {imm : Imm16} {i : Instr}
    (h : decode1OPI opcode x a imm = some i) (hx : x < 16) : decodeRow (word1OPI opcode x a imm) = some i := by
  unfold decode1OPI at h
  split at h
  · exact (decodeRow_jumpIf x a imm hx).trans h
  · exact (decodeRow_branchImm x a imm hx).trans h
  · exact (decodeRow_loadRel x a imm hx).trans h
  · exact (decodeRow_storeRel x a imm hx).trans h
  · exact (decodeRow_skipSigned x a imm hx).trans h
  · exact (decodeRow_skipUnsigned x a imm hx).trans h
  · cases h

theorem LaidOut.decodeRow_eq {w : InstrWord} {i : Instr} (h : LaidOut w i) : decodeRow w = some i := by
  cases h with
  | op4 h =>
    obtain ⟨hx, -⟩ := decode4OP_some h
    rw [decodeRow_word4OP _ _ _ _ _ hx, h]
  | op3 h =>
    obtain ⟨hx, -⟩ := decode3OP_some h
    rw [decodeRow_word3OP _ _ _ _ hx, h]
  | op2 h =>
    obtain ⟨hx, -⟩ := decode2OP_some h
    rw [decodeRow_word2OP _ _ _ hx, h]
  | op1 h =>
    obtain ⟨hx, -⟩ := decode1OP_some h
    rw [decodeRow_word1OP _ _ hx, h]
  | op2i h =>
    obtain ⟨⟨hlt, hother⟩, -⟩ := decode2OPI_some h
    rw [decodeRow_word2OPI _ _ _ _ hlt hother, h]
  | op1i h =>
    obtain ⟨⟨-, hx⟩, -⟩ := decode1OPI_some h
    exact decodeRow_word1OPI h hx
  | halcode h =>
    obtain ⟨hlt, -⟩ := decodeHalcode_some h
    simp only [decodeRow, fields_wordHalcode _ hlt, h]
  | jump imm => simp only [decodeRow, fields_word0OPI imm, if_true]
  | nop v => simp only [decodeRow, fields_word0OP 0x00 v (by decide)]
  | halt v => simp only [decodeRow, fields_word0OP 0xFF v (by decide)]

theorem laidOut_of_decodeRow {w : InstrWord} {i : Instr} (h : decodeRow w = some i) : LaidOut w i := by
  unfold decodeRow at h
  split at h <;> rename_i ho
  · cases h; exact .of_eq (.nop _) (word0OP_fields ho)
  · exact .of_eq (.op4 h) (word4OP_fields ho)
  · exact .of_eq (.op3 h) (word3OP_fields ho)
  · exact .of_eq (.op2 h) (word2OP_fields ho)
  · exact .of_eq (.op1 h) (word1OP_fields ho)
  · exact .of_eq (.op1i (opcode := 0x2C) h) (word1OPI_fields ho)
  · exact .of_eq (.op1i (opcode := 0x2D) h) (word1OPI_fields ho)
  · exact .of_eq (.op1i (opcode := 0x2E) h) (word1OPI_fields ho)
  · exact .of_eq (.op1i (opcode := 0x2F) h) (word1OPI_fields ho)
  · split at h
    next hx => cases h; exact .of_eq (.jump _) (word0OPI_fields ho hx)
    next => cases h
  · exact .of_eq (.halcode h) (wordHalcode_fields ho)
  · exact .of_eq (.op1i (opcode := 0xA0) h) (word1OPI_fields ho)
  · exact .of_eq (.op1i (opcode := 0xA1) h) (word1OPI_fields ho)
  · cases h; exact .of_eq (.halt _) (word0OP_fields ho)
  · exact .of_eq (.op2i h) (word2OPI_fields rfl)

theorem decode_ok_iff {w : InstrWord} {i : Instr} : decode w = .ok i ↔ LaidOut w i := by
  have hd : decode w = .ok i ↔ decodeRow w = some i := by
    unfold decode
    cases decodeRow w <;> simp
  exact hd.trans ⟨laidOut_of_decodeRow, LaidOut.decodeRow_eq⟩

/-- Settles O1: the decoder reads the word laid out for an instruction, and the encoder writes it. -/
theorem decodeEncode : Obligations.DecodeEncode := fun i => decode_ok_iff.mpr (laidOut_encode i)

/-- Settles O2: a decoded word is laid out for its instruction, and only the encoder's word is. -/
theorem encodeDecode : Obligations.EncodeDecode := fun _ _ h => (decode_ok_iff.mp h).encode_eq

/-! ### The rows of the table (30_encoding.md R104) -/

/-- `matchesRow_high` in both directions. -/
theorem matchesRow_high_iff {w : InstrWord} {m k lo : Nat} (hk : BitVec.ofNat 32 k = BitVec.allOnes 32 <<< lo) :
    matchesRow w (m, k) = true ↔ w.toNat / 2 ^ lo * 2 ^ lo % 2 ^ 32 = m % 2 ^ 32 := by
  refine ⟨fun h => ?_, matchesRow_high hk⟩
  simp only [matchesRow, hk, and_highMask, beq_iff_eq] at h
  simpa [Nat.shiftLeft_eq, Nat.shiftRight_eq_div_pow] using congrArg BitVec.toNat h

/-! A word that matches a row's match and mask is a word of the row's format, with the row's XOP: the converse of the
lemmas of `TableRow`. -/

theorem exists_word4OP {w : InstrWord} {x : Nat} (hx : x < 256)
    (h : matchesRow w (0x01000000 + x * 0x10000, 0xFFFF0000) = true) : ∃ a b c d, word4OP x a b c d = w := by
  have hm := (matchesRow_high_iff (lo := 16) (by decide)).mp h
  have h0 : slice w 31 24 = 0x01 := by rw [slice_eq]; omega
  have h1 : slice w 23 16 = x := by rw [slice_eq]; omega
  exact ⟨_, _, _, _, h1 ▸ word4OP_fields h0⟩

theorem exists_word3OP {w : InstrWord} {x : Nat} (hx : x < 4096)
    (h : matchesRow w (0x05000000 + x * 0x1000, 0xFFFFF000) = true) : ∃ a b c, word3OP x a b c = w := by
  have hm := (matchesRow_high_iff (lo := 12) (by decide)).mp h
  have h0 : slice w 31 24 = 0x05 := by rw [slice_eq]; omega
  have h1 : slice w 23 12 = x := by rw [slice_eq]; omega
  exact ⟨_, _, _, h1 ▸ word3OP_fields h0⟩

theorem exists_word2OP {w : InstrWord} {x : Nat} (hx : x < 65536)
    (h : matchesRow w (0x09000000 + x * 0x100, 0xFFFFFF00) = true) : ∃ a b, word2OP x a b = w := by
  have hm := (matchesRow_high_iff (lo := 8) (by decide)).mp h
  have h0 : slice w 31 24 = 0x09 := by rw [slice_eq]; omega
  have h1 : slice w 23 8 = x := by rw [slice_eq]; omega
  exact ⟨_, _, h1 ▸ word2OP_fields h0⟩

theorem exists_word1OP {w : InstrWord} {x : Nat} (hx : x < 1048576)
    (h : matchesRow w (0x0D000000 + x * 0x10, 0xFFFFFFF0) = true) : ∃ a, word1OP x a = w := by
  have hm := (matchesRow_high_iff (lo := 4) (by decide)).mp h
  have h0 : slice w 31 24 = 0x0D := by rw [slice_eq]; omega
  have h1 : slice w 23 4 = x := by rw [slice_eq]; omega
  exact ⟨_, h1 ▸ word1OP_fields h0⟩

/-- A row whose mask is the opcode byte: those of 2OPI, NOP and HALT. -/
theorem opcode_of_matchesRow {w : InstrWord} {opcode : Nat} (ho : opcode < 256)
    (h : matchesRow w (opcode * 0x1000000, 0xFF000000) = true) : slice w 31 24 = opcode := by
  have hm := (matchesRow_high_iff (lo := 24) (by decide)).mp h
  rw [slice_eq]
  omega

theorem exists_word1OPI {w : InstrWord} {opcode x : Nat} (ho : opcode < 256) (hx : x < 16)
    (h : matchesRow w (opcode * 0x1000000 + x * 0x100000, 0xFFF00000) = true) :
    ∃ a imm, word1OPI opcode x a imm = w := by
  have hm := (matchesRow_high_iff (lo := 20) (by decide)).mp h
  have h0 : slice w 31 24 = opcode := by rw [slice_eq]; omega
  have h1 : slice w 23 20 = x := by rw [slice_eq]; omega
  exact ⟨_, _, h1 ▸ word1OPI_fields h0⟩

theorem exists_word0OPI {w : InstrWord} (h : matchesRow w (0x3C000000, 0xFFFF0000) = true) :
    ∃ imm, word0OPI imm = w := by
  have hm := (matchesRow_high_iff (lo := 16) (by decide)).mp h
  have h0 : slice w 31 24 = 0x3C := by rw [slice_eq]; omega
  have h1 : slice w 23 16 = 0 := by rw [slice_eq]; omega
  exact ⟨_, word0OPI_fields h0 h1⟩

theorem matchesRow_full_iff {w : InstrWord} {m : Nat} :
    matchesRow w (m, 0xFFFFFFFF) = true ↔ w = BitVec.ofNat 32 m := by
  rw [matchesRow, beq_iff_eq, show BitVec.ofNat 32 0xFFFFFFFF = BitVec.allOnes 32 from rfl, BitVec.and_allOnes]

/-- A word stands in the row of the instruction it is laid out for. -/
theorem LaidOut.matches_tableRow {w : InstrWord} {i : Instr} (h : LaidOut w i) : matchesRow w (tableRow i) = true := by
  cases h with
  | op4 h =>
    obtain ⟨-, -, hrow, -⟩ := decode4OP_some h
    exact hrow ▸ TableRow.of4OP _ _ _ _ _ _ rfl
  | op3 h =>
    obtain ⟨-, -, hrow, -⟩ := decode3OP_some h
    exact hrow ▸ TableRow.of3OP _ _ _ _ _ rfl
  | op2 h =>
    obtain ⟨-, -, hrow, -⟩ := decode2OP_some h
    exact hrow ▸ TableRow.of2OP _ _ _ _ rfl
  | op1 h =>
    obtain ⟨-, -, hrow, -⟩ := decode1OP_some h
    exact hrow ▸ TableRow.of1OP _ _ _ rfl
  | op2i h =>
    obtain ⟨-, -, hrow, -⟩ := decode2OPI_some h
    exact hrow ▸ TableRow.of2OPI _ _ _ _ _ rfl
  | op1i h =>
    obtain ⟨-, -, hrow, -⟩ := decode1OPI_some h
    exact hrow ▸ TableRow.of1OPI _ _ _ _ _ rfl
  | halcode h =>
    obtain ⟨-, -, hrow⟩ := decodeHalcode_some h
    exact hrow ▸ matchesRow_full_iff.mpr rfl
  | jump imm => exact TableRow.jump imm
  | nop v => exact TableRow.nop v
  | halt v => exact TableRow.halt v

/-- A word that matches the row of an instruction is laid out for one of that row: itself, with the word's operands. -/
theorem LaidOut.exists_of_matchesRow {w w' : InstrWord} {j : Instr} (h : LaidOut w' j)
    (hw : matchesRow w (tableRow j) = true) : ∃ i, LaidOut w i ∧ tableRow i = tableRow j := by
  cases h with
  | op4 h =>
    obtain ⟨hx, -, hrow, hall⟩ := decode4OP_some h
    obtain ⟨a, b, c, d, rfl⟩ := exists_word4OP hx (hrow ▸ hw)
    obtain ⟨i, hi, hij⟩ := hall a b c d
    exact ⟨i, .op4 hi, hij⟩
  | op3 h =>
    obtain ⟨hx, -, hrow, hall⟩ := decode3OP_some h
    obtain ⟨a, b, c, rfl⟩ := exists_word3OP hx (hrow ▸ hw)
    obtain ⟨i, hi, hij⟩ := hall a b c
    exact ⟨i, .op3 hi, hij⟩
  | op2 h =>
    obtain ⟨hx, -, hrow, hall⟩ := decode2OP_some h
    obtain ⟨a, b, rfl⟩ := exists_word2OP hx (hrow ▸ hw)
    obtain ⟨i, hi, hij⟩ := hall a b
    exact ⟨i, .op2 hi, hij⟩
  | op1 h =>
    obtain ⟨hx, -, hrow, hall⟩ := decode1OP_some h
    obtain ⟨a, rfl⟩ := exists_word1OP hx (hrow ▸ hw)
    obtain ⟨i, hi, hij⟩ := hall a
    exact ⟨i, .op1 hi, hij⟩
  | op2i h =>
    obtain ⟨⟨hlt, -⟩, -, hrow, hall⟩ := decode2OPI_some h
    have ho := opcode_of_matchesRow hlt (hrow ▸ hw)
    obtain ⟨i, hi, hij⟩ := hall (nibble w 20) (nibble w 16) (immediate w)
    exact ⟨i, .of_eq (.op2i hi) (word2OPI_fields ho), hij⟩
  | op1i h =>
    obtain ⟨⟨hlt, hx⟩, -, hrow, hall⟩ := decode1OPI_some h
    obtain ⟨a, imm, rfl⟩ := exists_word1OPI hlt hx (hrow ▸ hw)
    obtain ⟨i, hi, hij⟩ := hall a imm
    exact ⟨i, .op1i hi, hij⟩
  | halcode h =>
    obtain ⟨-, -, hrow⟩ := decodeHalcode_some h
    exact ⟨_, .of_eq (.halcode h) (matchesRow_full_iff.mp (hrow ▸ hw)).symm, rfl⟩
  | jump =>
    obtain ⟨imm, rfl⟩ := exists_word0OPI hw
    exact ⟨_, .jump imm, rfl⟩
  | nop => exact ⟨_, .of_eq (.nop _) (word0OP_fields (opcode_of_matchesRow (by decide) hw)), rfl⟩
  | halt => exact ⟨_, .of_eq (.halt _) (word0OP_fields (opcode_of_matchesRow (by decide) hw)), rfl⟩

/-- Settles O3: the rows that a word meets are those of the instructions it is laid out for, and it decodes to those. -/
theorem decodeFollowsTable : Obligations.DecodeFollowsTable := by
  intro w
  refine ⟨fun i hi => (decode_ok_iff.mp hi).matches_tableRow, fun j hj => ?_⟩
  obtain ⟨i, hi, hrow⟩ := (laidOut_encode j).exists_of_matchesRow hj
  exact ⟨i, decode_ok_iff.mpr hi, hrow⟩

/-- A word that matches no row is rejected (R108). -/
theorem decode_of_matchesNoRow {w : InstrWord} (h : ∀ i, matchesRow w (tableRow i) = false) :
    decode w = .error (rejection w) := by
  unfold decode
  cases hd : decodeRow w with
  | none => rfl
  | some i =>
    have hm := (laidOut_of_decodeRow hd).matches_tableRow
    rw [h i] at hm
    cases hm

/-- Settles O5: each word is the one the encoder writes for its instruction, and decoding undoes encoding. -/
theorem decodeOfWrittenWords : Obligations.DecodeOfWrittenWords :=
  ⟨decodeEncode (.nop 0), decodeEncode (.adduCo 0 1 2 3), decodeEncode (.add 1 2 15), decodeEncode (.pushr 0 15),
    decodeEncode (.ret 15), decodeEncode (.addi 1 2 0xFFFC), decodeEncode (.jumpNz 1 0xFFF4),
    decodeEncode (.jump 0xFFF0), decodeEncode .fgetc, decodeEncode (.cmpskipuiLe 12 0x8000),
    decodeEncode (.halt 0xFFFFFF)⟩

end Sys2Proof

namespace Sys2Proof.Machine

variable {n : Xlen}

/-! ### The step on a word that is no instruction (30_encoding.md R108, 60_exceptions.md R501, R505) -/

/-- The fault of a rejected word is told by its first byte. -/
theorem decodeFault_rejection (w : InstrWord) :
    (w.toNat / 2 ^ 24 = 0x42 → decodeFault w (rejection w) = .invalidHalcode (BitVec.ofNat 24 w.toNat)) ∧
      (w.toNat / 2 ^ 24 ≠ 0x42 → decodeFault w (rejection w) = .illegalInstruction w) := by
  have hbyte : slice w 31 24 = w.toNat / 2 ^ 24 := by rw [slice_eq]; omega
  have hlow : low24 w = BitVec.ofNat 24 w.toNat := by
    apply BitVec.eq_of_toNat_eq
    rw [toNat_low24, BitVec.toNat_ofNat]
  rw [rejection, hbyte, hlow]
  exact ⟨fun h => by rw [if_pos h]; rfl, fun h => by rw [if_neg h]; rfl⟩

/-- Settles O4: the fetch fits, decoding rejects the word, and the fault taken at pc changes the status alone. -/
theorem decodeRejects : Obligations.DecodeRejects := by
  intro n s hs hr hw
  have hf : s.fetchDecode = .error (decodeFault s.fetchWord (rejection s.fetchWord)) :=
    fetchDecode_error.mpr (.inr ⟨hr, _, decode_of_matchesNoRow hw, rfl⟩)
  obtain ⟨hhalcode, hillegal⟩ := decodeFault_rejection s.fetchWord
  exact ⟨_, step_next.mpr (.inr (.inr ⟨hs, _, hf, rfl⟩)), rfl, fun _ _ => rfl, ⟨rfl, fun _ => rfl⟩, ⟨rfl, rfl, rfl⟩,
    fun h => congrArg _ (hhalcode h), fun h => congrArg _ (hillegal h)⟩

end Sys2Proof.Machine
end

section
/-!
NOP and HALT (40_nop_halt.md R140, R141): the opcode byte alone makes a word a NOP or a HALT, and neither does more than
its rule says.
-/

namespace Sys2Proof

/-! ### A word of format 0OP, told by its number (30_encoding.md R92, R109) -/

/-- The opcode byte is what stands above the low 24 bits. -/
theorem opcodeByte_eq (w : InstrWord) : slice w 31 24 = w.toNat / 2 ^ 24 := by
  rw [slice_eq]
  omega

theorem low24_eq_ofNat (w : InstrWord) : low24 w = BitVec.ofNat 24 w.toNat := by
  apply BitVec.eq_of_toNat_eq
  rw [toNat_low24, BitVec.toNat_ofNat]

/-- A word is laid out in format 0OP by its opcode byte and its low 24 bits, whatever these are. -/
theorem word0OP_of_opcodeByte {w : InstrWord} {opcode : Nat} (h : w.toNat / 2 ^ 24 = opcode) :
    word0OP opcode (BitVec.ofNat 24 w.toNat) = w := by
  rw [← low24_eq_ofNat]
  exact word0OP_fields ((opcodeByte_eq w).trans h)

theorem decode_of_opcodeByte_nop {w : InstrWord} (h : w.toNat / 2 ^ 24 = 0x00) :
    decode w = .ok (.nop (BitVec.ofNat 24 w.toNat)) :=
  decode_ok_iff.mpr (.of_eq (.nop _) (word0OP_of_opcodeByte h))

theorem decode_of_opcodeByte_halt {w : InstrWord} (h : w.toNat / 2 ^ 24 = 0xFF) :
    decode w = .ok (.halt (BitVec.ofNat 24 w.toNat)) :=
  decode_ok_iff.mpr (.of_eq (.halt _) (word0OP_of_opcodeByte h))

end Sys2Proof

namespace Sys2Proof.Machine

variable {n : Xlen}

/-! ### What the two instructions answer; `exec_halt` is the other -/

theorem exec_nop (v : BitVec 24) (s : Mach n) : exec (.nop v) s.toState = .next s.toState := (rfl)

theorem keepsRegs_setStatus (s : Mach n) (v : RunStatus) : KeepsRegs s (s.setStatus v) [] :=
  fun q _ => Mach.reg_setStatus s v q

theorem keepsMemory_setStatus (s : Mach n) (v : RunStatus) : KeepsMemory s (s.setStatus v) := by
  simp [KeepsMemory]

theorem keepsDevices_setStatus (s : Mach n) (v : RunStatus) : KeepsDevices s (s.setStatus v) := by
  simp [KeepsDevices]

/-- Settles O18: the opcode byte decides the decoding; NOP answers its state, and HALT a change of the status alone. -/
theorem nopAndHalt : Obligations.NopAndHalt := by
  refine ⟨fun w => ⟨decode_of_opcodeByte_nop, decode_of_opcodeByte_halt⟩, fun n s v => ⟨exec_nop v s, ?_⟩⟩
  exact ⟨s.setStatus .halted, exec_halt v s, Mach.status_setStatus s .halted, Mach.pc_setStatus s .halted,
    keepsRegs_setStatus s .halted, keepsMemory_setStatus s .halted, keepsDevices_setStatus s .halted⟩

end Sys2Proof.Machine
end

section
/-!
The sums and differences of the 4OP group (41_4op_integer.md R151 to R164): the shapes in which two registers are
written, the carry and the borrow as one bit of a register, and the chain of two additions.
-/

namespace Sys2Proof.Machine

variable {n : Xlen}

/-! ### Writing two registers; `setsReg_of` is the law for one -/

/-- Two register writes change nothing but the two registers. -/
theorem Mach.keeps_setReg_setReg (s : Mach n) (a b : Reg) (va vb : Word n) :
    OnlyRegs s ((s.setReg a va).setReg b vb) [a, b] := by
  refine ⟨fun r hr => ?_, ⟨rfl, fun _ => rfl⟩, ⟨rfl, rfl, rfl⟩, rfl⟩
  obtain ⟨hra, hrb⟩ : r ≠ a ∧ r ≠ b := by simpa using hr
  rw [Mach.reg_setReg_ne _ _ hrb, Mach.reg_setReg_ne _ _ hra]

/-- A meaning that writes two distinct registers. -/
theorem setsPair_of {i : Instr} {s : Mach n} {a b : Reg} {va vb : Word n} (hab : a ≠ b)
    (h : exec i s.toState = (writePair s a b va vb).lift) : SetsPair i s a b va vb :=
  ⟨(s.setReg a va).setReg b vb, h.trans (lift_next_toState.mpr (writePair_next.mpr ⟨hab, rfl⟩)), by simp [hab], by simp,
    rfl, s.keeps_setReg_setReg a b va vb⟩

/-- The second of two written values, told bit by bit: one bit is the flag, the others are as they were. -/
theorem SetsPair.setsRegAndFlag {i : Instr} {s : Mach n} {a d : Reg} {v w : Word n} {bit : Nat} {f : Bool}
    (h : SetsPair i s a d v w) (hw : ∀ k, k < n.bits → bitOf w k = if k = bit then f else bitOf (s.reg d) k) :
    SetsRegAndFlag i s a d v bit f := by
  obtain ⟨t, he, ha, rfl, hpc, hkeeps⟩ := h
  exact ⟨t, he, ha, hw, hpc, hkeeps⟩

/-- A meaning that writes a result and the carry (R151). -/
theorem setsRegAndCarry_of {i : Instr} {s : Mach n} {a d : Reg} {v : Word n} {f : Bool} (had : a ≠ d)
    (h : exec i s.toState = (writePair s a d v (putBits (s.reg d) carryBit f)).lift) :
    SetsRegAndFlag i s a d v 5 f :=
  (setsPair_of had h).setsRegAndFlag fun k hk => bitOf_putBits_carryBit _ k f hk

/-- A meaning that writes a result and the borrow (R151). -/
theorem setsRegAndBorrow_of {i : Instr} {s : Mach n} {a d : Reg} {v : Word n} {f : Bool} (had : a ≠ d)
    (h : exec i s.toState = (writePair s a d v (putBits (s.reg d) borrowBit f)).lift) :
    SetsRegAndFlag i s a d v 4 f :=
  (setsPair_of had h).setsRegAndFlag fun k hk => bitOf_putBits_borrowBit _ k f hk

/-- `exec_of_coinciding` for several instructions at once (10_state.md R37). -/
theorem exec_of_all_coinciding {l : List Instr} {p : Reg} (h : ∀ i ∈ l, i.destinations = some (p, p)) (s : Mach n) :
    ∀ i ∈ l, exec i s.toState = .refused .coincidingDestinations :=
  fun i hi => exec_of_coinciding (h i hi) s

/-! ### Sums and differences without a bit in (R154, R157, R160, R163) -/

theorem addCarry_false (x y : Word n) : addCarry x y false = wordOf (uInt x + uInt y) := by
  rw [addCarry_eq, show bitInt false = 0 from rfl, add_zero]

theorem subBorrow_false (x y : Word n) : subBorrow x y false = wordOf (uInt x - uInt y) := by
  rw [subBorrow_eq, show bitInt false = 0 from rfl, sub_zero]

theorem carryUnsigned_false (x y : Word n) :
    carryUnsigned x y false = decide (2 ^ n.bits ≤ uInt x + uInt y) := by
  rw [carryUnsigned_eq, show bitInt false = 0 from rfl, add_zero]

theorem borrowUnsigned_false (x y : Word n) : borrowUnsigned x y false = decide (uInt x < uInt y) := by
  rw [borrowUnsigned_eq, show bitInt false = 0 from rfl, add_zero]

/-- Settles O19: the mask tests bit 5 or bit 4, and the value written is the pattern of the integer formula. -/
theorem addSubWithCarryIn : Obligations.AddSubWithCarryIn := by
  intro n s a b c d
  rw [← testBits_carryBit, ← testBits_borrowBit, ← addCarry_eq, ← subBorrow_eq]
  exact ⟨setsReg_of rfl, setsReg_of rfl, setsReg_of rfl, setsReg_of rfl⟩

/-- Settles O20: the value is the pattern of the exact sum, the flag one bit put into x[d]. -/
theorem addWithCarryOut : Obligations.AddWithCarryOut := by
  intro n s a b c d
  rw [← testBits_carryBit, ← addCarry_eq, ← addCarry_false, ← carryUnsigned_eq, ← carryUnsigned_false]
  refine ⟨fun had => ⟨?addCo, ?addCio, ?adduCo, ?adduCio⟩, ?coinciding⟩
  case coinciding =>
    rintro rfl
    exact exec_of_all_coinciding (p := a) (by simp [Instr.destinations]) s
  all_goals exact setsRegAndCarry_of had rfl

/-- Settles O21: as O20, with the borrow put into bit 4. -/
theorem subWithBorrowOut : Obligations.SubWithBorrowOut := by
  intro n s a b c d
  rw [← testBits_borrowBit, ← subBorrow_eq, ← subBorrow_false, ← borrowUnsigned_eq, ← borrowUnsigned_false]
  refine ⟨fun had => ⟨?subBo, ?subBio, ?subuBo, ?subuBio⟩, ?coinciding⟩
  case coinciding =>
    rintro rfl
    exact exec_of_all_coinciding (p := a) (by simp [Instr.destinations]) s
  all_goals exact setsRegAndBorrow_of had rfl

/-! ### Numbers of 2n bits as two digits of base 2^n -/

/-- The carry out of the low digits is the quotient of their sum by the base. -/
theorem bitInt_carry_eq_ediv (x y : Word n) :
    bitInt (decide (2 ^ n.bits ≤ uInt x + uInt y)) = (uInt x + uInt y) / 2 ^ n.bits := by
  have hx := uInt_lt x
  have hy := uInt_lt y
  have hx0 := uInt_nonneg x
  have hy0 := uInt_nonneg y
  have hM : (0 : Int) < 2 ^ n.bits := by positivity
  by_cases h : 2 ^ n.bits ≤ uInt x + uInt y
  · rw [decide_eq_true h, show bitInt true = 1 from rfl, eq_comm, Int.ediv_eq_iff_of_pos hM]
    omega
  · rw [decide_eq_false h, show bitInt false = 0 from rfl, Int.ediv_eq_zero_of_lt (by omega) (by omega)]

/-- Two digits modulo the square of the base: the high one is reduced, with the carry of the low one. -/
theorem twoDigits_emod {m : Int} (hm : 0 < m) (hi lo : Int) :
    (hi * m + lo) % (m * m) = (hi + lo / m) % m * m + lo % m := by
  have hdigits : (hi + lo / m) % m * m + lo % m + m * m * ((hi + lo / m) / m) = hi * m + lo := by
    linear_combination m * Int.mul_ediv_add_emod (hi + lo / m) m + Int.mul_ediv_add_emod lo m
  have hhigh := Int.emod_nonneg (hi + lo / m) hm.ne'
  have hhigh' := Int.emod_lt_of_pos (hi + lo / m) hm
  have hlow := Int.emod_nonneg lo hm.ne'
  have hlow' := Int.emod_lt_of_pos lo hm
  exact ((Int.ediv_emod_unique (by positivity)).mpr ⟨hdigits, by positivity, by nlinarith⟩).2

/-- Settles O22: the first instruction leaves the carry of the low digits in x[f], which the second adds to the high
ones; the distinctness of the registers says that neither overwrites what is read later. -/
theorem carryChainAddsDoubleWords : Obligations.CarryChainAddsDoubleWords := by
  intro n s lo b c f hi b2 c2 hlf hhl hb2l hb2f hc2l hc2f
  obtain ⟨-, -, ⟨t, ht, htlo, htf, -, htregs, -⟩, -⟩ := (addWithCarryOut n s lo b c f).1 hlf
  obtain ⟨-, ⟨u, hu, huhi, -, huregs, -⟩, -, -⟩ := addSubWithCarryIn n t hi b2 c2 f
  refine ⟨t, u, ht, hu, ?_⟩
  have hcarry : bitInt (bitOf (t.reg f) 5) = (uInt (s.reg b) + uInt (s.reg c)) / 2 ^ n.bits := by
    rw [htf 5 (lt_of_lt_of_le (by decide) n.bits_ge), if_pos rfl, bitInt_carry_eq_ediv]
  have hlow : u.reg lo = t.reg lo := huregs lo (by simpa using hhl.symm)
  have hb2 : t.reg b2 = s.reg b2 := htregs b2 (by simp [hb2l, hb2f])
  have hc2 : t.reg c2 = s.reg c2 := htregs c2 (by simp [hc2l, hc2f])
  rw [huhi, hlow, htlo, hcarry, hb2, hc2, uInt_wordOf, uInt_wordOf, two_mul, pow_add,
    ← twoDigits_emod (by positivity)]
  congr 1
  ring

end Sys2Proof.Machine
end

section
/-!
Full products and division (41_4op_integer.md R165 to R168, 42_3op_integer_alu.md R192 to R195): the values as integers,
and the two-register and one-register forms that share them.
-/

namespace Sys2Proof.Machine

variable {n : Xlen}

/-! ### Products (R165, R166) -/

/-- A number whose high digit fits in n bits, read with s, is its two digits. -/
theorem sInt_high_add_uInt_low {z : Int} (h1 : -2 ^ (n.bits - 1) * 2 ^ n.bits ≤ z)
    (h2 : z < 2 ^ (n.bits - 1) * 2 ^ n.bits) :
    sInt (wordOf (z / 2 ^ n.bits) : Word n) * 2 ^ n.bits + uInt (wordOf z : Word n) = z := by
  have hM : (0 : Int) < 2 ^ n.bits := by positivity
  rw [sInt_wordOf (Int.le_ediv_of_mul_le hM h1) (Int.ediv_lt_of_lt_mul hM h2), uInt_wordOf, Int.ediv_mul_add_emod]

/-- As `sInt_high_add_uInt_low`, with the high digit read with u. -/
theorem uInt_high_add_uInt_low {z : Int} (h1 : 0 ≤ z) (h2 : z < 2 ^ n.bits * 2 ^ n.bits) :
    uInt (wordOf (z / 2 ^ n.bits) : Word n) * 2 ^ n.bits + uInt (wordOf z : Word n) = z := by
  have hM : (0 : Int) < 2 ^ n.bits := by positivity
  rw [uInt_wordOf_of_lt (Int.ediv_nonneg h1 hM.le) (Int.ediv_lt_of_lt_mul hM h2), uInt_wordOf, Int.ediv_mul_add_emod]

theorem abs_sInt_le (v : Word n) : |sInt v| ≤ 2 ^ (n.bits - 1) :=
  abs_le.mpr ⟨sInt_lower v, (sInt_upper v).le⟩

/-- The exact signed product fits in 2n bits. -/
theorem sInt_mul_bounds (x y : Word n) :
    -2 ^ (n.bits - 1) * 2 ^ n.bits ≤ sInt x * sInt y ∧ sInt x * sInt y < 2 ^ (n.bits - 1) * 2 ^ n.bits := by
  have hH : (0 : Int) < 2 ^ (n.bits - 1) := by positivity
  have hprod : |sInt x * sInt y| ≤ 2 ^ (n.bits - 1) * 2 ^ (n.bits - 1) := by
    rw [abs_mul]
    exact mul_le_mul (abs_sInt_le x) (abs_sInt_le y) (abs_nonneg _) hH.le
  obtain ⟨hlower, hupper⟩ := abs_le.mp hprod
  rw [n.two_pow_bits_int]
  constructor <;> nlinarith

/-- The exact unsigned product fits in 2n bits. -/
theorem uInt_mul_bounds (x y : Word n) : 0 ≤ uInt x * uInt y ∧ uInt x * uInt y < 2 ^ n.bits * 2 ^ n.bits :=
  ⟨mul_nonneg (uInt_nonneg x) (uInt_nonneg y),
    mul_lt_mul'' (uInt_lt x) (uInt_lt y) (uInt_nonneg x) (uInt_nonneg y)⟩

theorem setsPair_multiply (s : Mach n) {a b : Reg} (c d : Reg) (hab : a ≠ b) :
    SetsPair (.multiply a b c d) s a b (wordOf (sInt (s.reg c) * sInt (s.reg d)))
      (wordOf (sInt (s.reg c) * sInt (s.reg d) / 2 ^ n.bits)) := by
  rw [← mulLow_eq_signed, ← mulHighSigned_eq]
  exact setsPair_of hab rfl

theorem setsPair_multiplyu (s : Mach n) {a b : Reg} (c d : Reg) (hab : a ≠ b) :
    SetsPair (.multiplyu a b c d) s a b (wordOf (uInt (s.reg c) * uInt (s.reg d)))
      (wordOf (uInt (s.reg c) * uInt (s.reg d) / 2 ^ n.bits)) := by
  rw [← mulLow_eq_unsigned, ← mulHighUnsigned_eq]
  exact setsPair_of hab rfl

/-- Settles O23: the halves are the digits of the exact product, which fits in 2n bits. -/
theorem fullProducts : Obligations.FullProducts := by
  intro n s a b c d
  refine ⟨fun hab => ⟨⟨setsPair_multiply s c d hab, ?signed⟩, ⟨setsPair_multiplyu s c d hab, ?unsigned⟩⟩, ?coinciding⟩
  case signed =>
    obtain ⟨t, he, ha, hb, -⟩ := setsPair_multiply s c d hab
    obtain ⟨hlower, hupper⟩ := sInt_mul_bounds (s.reg c) (s.reg d)
    exact ⟨t, he, by rw [ha, hb, sInt_high_add_uInt_low hlower hupper]⟩
  case unsigned =>
    obtain ⟨t, he, ha, hb, -⟩ := setsPair_multiplyu s c d hab
    obtain ⟨hlower, hupper⟩ := uInt_mul_bounds (s.reg c) (s.reg d)
    exact ⟨t, he, by rw [ha, hb, uInt_high_add_uInt_low hlower hupper]⟩
  case coinciding =>
    rintro rfl
    exact exec_of_all_coinciding (p := a) (by simp [Instr.destinations]) s

/-! ### Division (R167, R168, R192 to R195): the meanings, by what the division answers -/

theorem divideInto_ok {s : Mach n} {a b : Reg} (q r : Word n) (hab : a ≠ b) :
    divideInto s a b (.ok (q, r)) = writePair s a b q r := by
  rw [divideInto, writePair, if_neg hab]

theorem divideInto_error {s : Mach n} {a b : Reg} (f : Fault) (hab : a ≠ b) :
    divideInto s a b (.error f) = raiseFault s f := if_neg hab

theorem exec_divide (a b c d : Reg) (s : Mach n) :
    exec (.divide a b c d) s.toState = (divideInto s a b (divideSigned (s.reg c) (s.reg d))).lift := (rfl)

theorem exec_div (a c d : Reg) (s : Mach n) :
    exec (.div a c d) s.toState = (divideHalf s a (divideSigned (s.reg c) (s.reg d)) Prod.fst).lift := (rfl)

theorem exec_mod (a c d : Reg) (s : Mach n) :
    exec (.mod a c d) s.toState = (divideHalf s a (divideSigned (s.reg c) (s.reg d)) Prod.snd).lift := (rfl)

theorem exec_divideu (a b c d : Reg) (s : Mach n) :
    exec (.divideu a b c d) s.toState = (divideInto s a b (divideUnsigned (s.reg c) (s.reg d))).lift := (rfl)

theorem exec_divu (a c d : Reg) (s : Mach n) :
    exec (.divu a c d) s.toState = (divideHalf s a (divideUnsigned (s.reg c) (s.reg d)) Prod.fst).lift := (rfl)

theorem exec_modu (a c d : Reg) (s : Mach n) :
    exec (.modu a c d) s.toState = (divideHalf s a (divideUnsigned (s.reg c) (s.reg d)) Prod.snd).lift := (rfl)

/-- DIVIDE, DIV and MOD write the two results of a signed division that has them. -/
theorem signedForms_of_ok {s : Mach n} {c d : Reg} {q r : Word n} (a b : Reg)
    (h : divideSigned (s.reg c) (s.reg d) = .ok (q, r)) :
    (a ≠ b → SetsPair (.divide a b c d) s a b q r) ∧ SetsReg (.div a c d) s a q ∧ SetsReg (.mod a c d) s a r :=
  ⟨fun hab => setsPair_of hab (by rw [exec_divide, h, divideInto_ok q r hab]),
    setsReg_of (by rw [exec_div, h, divideHalf]), setsReg_of (by rw [exec_mod, h, divideHalf])⟩

/-- DIVIDE, DIV and MOD raise the fault of a signed division that has no results. -/
theorem signedForms_of_error {s : Mach n} {c d : Reg} {f : Fault} (a b : Reg)
    (h : divideSigned (s.reg c) (s.reg d) = .error f) :
    (a ≠ b → RaisesFault (.divide a b c d) s f) ∧ RaisesFault (.div a c d) s f ∧ RaisesFault (.mod a c d) s f :=
  ⟨fun hab => raisesFault_of (by rw [exec_divide, h, divideInto_error f hab]),
    raisesFault_of (by rw [exec_div, h, divideHalf]), raisesFault_of (by rw [exec_mod, h, divideHalf])⟩

/-- `signedForms_of_ok` for DIVIDEU, DIVU and MODU. -/
theorem unsignedForms_of_ok {s : Mach n} {c d : Reg} {q r : Word n} (a b : Reg)
    (h : divideUnsigned (s.reg c) (s.reg d) = .ok (q, r)) :
    (a ≠ b → SetsPair (.divideu a b c d) s a b q r) ∧ SetsReg (.divu a c d) s a q ∧ SetsReg (.modu a c d) s a r :=
  ⟨fun hab => setsPair_of hab (by rw [exec_divideu, h, divideInto_ok q r hab]),
    setsReg_of (by rw [exec_divu, h, divideHalf]), setsReg_of (by rw [exec_modu, h, divideHalf])⟩

/-- `signedForms_of_error` for DIVIDEU, DIVU and MODU. -/
theorem unsignedForms_of_error {s : Mach n} {c d : Reg} {f : Fault} (a b : Reg)
    (h : divideUnsigned (s.reg c) (s.reg d) = .error f) :
    (a ≠ b → RaisesFault (.divideu a b c d) s f) ∧ RaisesFault (.divu a c d) s f ∧ RaisesFault (.modu a c d) s f :=
  ⟨fun hab => raisesFault_of (by rw [exec_divideu, h, divideInto_error f hab]),
    raisesFault_of (by rw [exec_divu, h, divideHalf]), raisesFault_of (by rw [exec_modu, h, divideHalf])⟩

/-! ### Division: the values -/

theorem sInt_intMin : sInt (BitVec.intMin n.bits : Word n) = -2 ^ (n.bits - 1) := by
  rw [sInt_eq_toInt, BitVec.toInt_intMin_of_pos (by have := n.bits_ge; omega)]

theorem sInt_neg_one : sInt (-1#n.bits : Word n) = -1 := by
  rw [sInt_eq_toInt, BitVec.neg_one_eq_allOnes, BitVec.toInt_allOnes, if_pos (by have := n.bits_ge; omega)]

/-- Outside the corner the truncated quotient fits in n bits: it is the library's `BitVec.sdiv`. -/
theorem sInt_wordOf_tdiv {x y : Word n} (h : ¬(sInt x = -2 ^ (n.bits - 1) ∧ sInt y = -1)) :
    sInt (wordOf ((sInt x).tdiv (sInt y)) : Word n) = (sInt x).tdiv (sInt y) := by
  have hne : x ≠ BitVec.intMin n.bits ∨ y ≠ -1#n.bits := by
    by_contra! hxy
    obtain ⟨rfl, rfl⟩ := hxy
    exact h ⟨sInt_intMin, sInt_neg_one⟩
  have hq : sInt (x.sdiv y) = (sInt x).tdiv (sInt y) := by
    simp only [sInt_eq_toInt, BitVec.toInt_sdiv_of_ne_or_ne x y hne]
  rw [← hq, wordOf_sInt]

/-- The remainder of the truncated quotient fits in n bits: it is the library's `BitVec.srem`. -/
theorem sInt_wordOf_remainder (x y : Word n) :
    sInt (wordOf (sInt x - (sInt x).tdiv (sInt y) * sInt y) : Word n) =
      sInt x - (sInt x).tdiv (sInt y) * sInt y := by
  have hr : sInt (x.srem y) = sInt x - (sInt x).tdiv (sInt y) * sInt y := by
    simp only [sInt_eq_toInt, BitVec.toInt_srem, Int.tmod_def, mul_comm]
  rw [← hr, wordOf_sInt]

theorem sInt_eq_zero_of_uInt {v : Word n} (h : uInt v = 0) : sInt v = 0 := by
  have hv : v.toNat = 0 := by simpa [uInt] using h
  simp [sInt, hv]

/-- Settles O24: each clause is the answer of `divideSigned` or `divideUnsigned` in one case of Laws.Arith, carried to
the instructions that use it. -/
theorem divisionResults : Obligations.DivisionResults := by
  intro n s a b c d
  refine ⟨fun hd hcorner => ?ordinary, fun hd => unsignedForms_of_ok a b (divideUnsigned_ok hd), fun hd => ?zero,
    fun hc hd => ?corner, ?coinciding⟩
  case ordinary =>
    obtain ⟨hdivide, hdiv, hmod⟩ := signedForms_of_ok a b (divideSigned_ok hd hcorner)
    have hq := sInt_wordOf_tdiv hcorner
    have hr := sInt_wordOf_remainder (s.reg c) (s.reg d)
    exact ⟨fun hab => ⟨_, _, hdivide hab, hq, hr⟩, ⟨_, hdiv, hq⟩, ⟨_, hmod, hr⟩⟩
  case zero =>
    obtain ⟨hdivide, hdiv, hmod⟩ := signedForms_of_error a b (divideSigned_zero (x := s.reg c) (sInt_eq_zero_of_uInt hd))
    obtain ⟨hdivideu, hdivu, hmodu⟩ := unsignedForms_of_error a b (divideUnsigned_zero (x := s.reg c) hd)
    exact ⟨fun hab => ⟨hdivide hab, hdivideu hab⟩, hdiv, hmod, hdivu, hmodu⟩
  case corner =>
    have h := divideSigned_corner hc hd
    cases hsetting : Config.divOverflow with
    | fault => exact signedForms_of_error a b (by rw [h, hsetting])
    | wrap => exact signedForms_of_ok a b (by rw [h, hsetting])
  case coinciding =>
    rintro rfl
    exact ⟨exec_of_coinciding rfl s, exec_of_coinciding rfl s⟩

end Sys2Proof.Machine
end

section
/-!
Selection and logic (41_4op_integer.md R169 to R172, 42_3op_integer_alu.md R196 to R199, R208 to R217).
-/

namespace Sys2Proof.Machine

variable {n : Xlen}

/-! ### Larger and smaller (R171, R172, R196 to R199) -/

/-- Settles O27: the values written are the model's maximum and minimum, whose readings Laws.Arith gives. -/
theorem sortMaxMin : Obligations.SortMaxMin := by
  intro n s a b c d
  refine ⟨fun hab => ⟨⟨_, _, setsPair_of hab rfl, maxSigned_eq .., minSigned_eq ..⟩,
      ⟨_, _, setsPair_of hab rfl, maxUnsigned_eq .., minUnsigned_eq ..⟩⟩, ?coinciding,
    ⟨_, setsReg_of rfl, maxSigned_eq ..⟩, ⟨_, setsReg_of rfl, maxUnsigned_eq ..⟩,
    ⟨_, setsReg_of rfl, minSigned_eq ..⟩, ⟨_, setsReg_of rfl, minUnsigned_eq ..⟩⟩
  case coinciding =>
    rintro rfl
    exact ⟨exec_of_coinciding rfl s, exec_of_coinciding rfl s⟩

/-! ### Logic, bit by bit (R169, R170, R208 to R217) -/

/-- A meaning that writes one register, told bit by bit. -/
theorem setsBits_of {i : Instr} {s : Mach n} {a : Reg} {v : Word n} {f : Nat → Bool}
    (h : exec i s.toState = (writeReg s a v).lift) (hv : ∀ k, k < n.bits → bitOf v k = f k) : SetsBits i s a f := by
  obtain ⟨t, he, rfl, hpc, hkeeps⟩ := setsReg_of h
  exact ⟨t, he, hv, hpc, hkeeps⟩

@[simp] theorem bitOf_and (x y : Word n) (k : Nat) : bitOf (x &&& y) k = (bitOf x k && bitOf y k) := by
  simp only [bitOf_eq_getLsbD, BitVec.getLsbD_and]

@[simp] theorem bitOf_or (x y : Word n) (k : Nat) : bitOf (x ||| y) k = (bitOf x k || bitOf y k) := by
  simp only [bitOf_eq_getLsbD, BitVec.getLsbD_or]

@[simp] theorem bitOf_xor (x y : Word n) (k : Nat) : bitOf (x ^^^ y) k = (bitOf x k != bitOf y k) := by
  simp only [bitOf_eq_getLsbD, BitVec.getLsbD_xor, Bool.bne_eq_xor]

/-- There are no bits from n on, so the complement is bitwise below n only. -/
@[simp] theorem bitOf_not (x : Word n) {k : Nat} (hk : k < n.bits) : bitOf (~~~x) k = !bitOf x k := by
  simp only [bitOf_eq_getLsbD, BitVec.getLsbD_not, hk, decide_true, Bool.true_and]

theorem bitOf_muxBits (selector zero one : Word n) {k : Nat} (hk : k < n.bits) :
    bitOf (muxBits selector zero one) k =
      ((bitOf zero k && !bitOf selector k) || (bitOf one k && bitOf selector k)) := by
  simp only [muxBits, bitOf_or, bitOf_and, bitOf_not _ hk]

/-- Settles O25: each instruction writes one formula, whose bits the laws above give. -/
theorem bitwiseOperations : Obligations.BitwiseOperations := by
  intro n s a b c d
  refine ⟨setsBits_of rfl fun k hk => bitOf_muxBits _ _ _ hk, setsBits_of rfl fun k hk => ?nmux,
    setsBits_of rfl fun k _ => bitOf_and _ _ k, setsBits_of rfl fun k _ => bitOf_or _ _ k,
    setsBits_of rfl fun k _ => bitOf_xor _ _ k, setsBits_of rfl fun k hk => ?nand, setsBits_of rfl fun k hk => ?nor,
    setsBits_of rfl fun k hk => ?xnor, setsBits_of rfl fun k hk => ?mpq, setsBits_of rfl fun k hk => ?lpq,
    setsBits_of rfl fun k hk => ?cpq, setsBits_of rfl fun k hk => ?bpq⟩
  case nmux => rw [bitOf_muxBits _ _ _ hk, Bool.or_comm]
  case nand => rw [bitOf_not _ hk, bitOf_and]
  case nor => rw [bitOf_not _ hk, bitOf_or]
  case xnor => rw [bitOf_not _ hk, bitOf_xor, bne, Bool.not_not]
  case mpq => rw [bitOf_and, bitOf_not _ hk]
  case lpq => rw [bitOf_and, bitOf_not _ hk]
  case cpq => rw [bitOf_or, bitOf_not _ hk]
  case bpq => rw [bitOf_or, bitOf_not _ hk]

end Sys2Proof.Machine
end

section
/-!
Arithmetic, compares, shifts and rotates of three registers (42_3op_integer_alu.md R182 to R191, R200 to R207, R218 to
R225): each writes one value, which Laws.Arith reads as an integer or bit by bit.
-/

namespace Sys2Proof.Machine

variable {n : Xlen}

/-! ### Sums, differences and products (R182 to R185, R188 to R191) -/

theorem add_eq_wordOf (x y : Word n) : x + y = wordOf (uInt x + uInt y) := by
  rw [wordOf_add, wordOf_uInt, wordOf_uInt]

theorem sub_eq_wordOf (x y : Word n) : x - y = wordOf (uInt x - uInt y) := by
  rw [wordOf_sub, wordOf_uInt, wordOf_uInt]

/-- Settles O28: every value written is the pattern of the integer formula. -/
theorem addSubMul : Obligations.AddSubMul := by
  intro n s a b c
  rw [← add_eq_wordOf, ← sub_eq_wordOf, ← mulLow_eq_signed, ← mulHighSigned_eq, ← mulLow_eq_unsigned,
    ← mulHighUnsigned_eq]
  exact ⟨setsReg_of rfl, setsReg_of rfl, setsReg_of rfl, setsReg_of rfl, setsReg_of rfl, setsReg_of rfl,
    setsReg_of rfl, setsReg_of rfl⟩

/-! ### Compares (R186, R187, R355, R363) -/

theorem setsReg_cmp (s : Mach n) (a b c : Reg) :
    SetsReg (.cmp a b c) s a (compareValue (sInt (s.reg b)) (sInt (s.reg c))) := by
  rw [sInt_eq_toInt, sInt_eq_toInt]
  exact setsReg_of rfl

theorem setsReg_cmpi (s : Mach n) (a b : Reg) (imm : Imm16) :
    SetsReg (.cmpi a b imm) s a (compareValue (sInt (s.reg b)) (sImm imm)) := by
  rw [← sInt_sextImm (n := n), sInt_eq_toInt, sInt_eq_toInt]
  exact setsReg_of rfl

theorem setsReg_cmpui (s : Mach n) (a b : Reg) (imm : Imm16) :
    SetsReg (.cmpui a b imm) s a (compareValue (uInt (s.reg b)) (uImm imm)) := by
  rw [← uInt_zextImm (n := n)]
  exact setsReg_of rfl

/-- Settles O29: all four write `compareValue`, of the two operands as the instruction reads them. -/
theorem compareResults : Obligations.CompareResults := by
  intro n s a b c imm
  simp only [← compareValue_eq]
  exact ⟨setsReg_cmp s a b c, setsReg_of rfl, setsReg_cmpi s a b imm, setsReg_cmpui s a b imm⟩

/-! ### Jumps on a compare result (47_1opi_0opi.md R385 to R390) -/

theorem toNat_compareValue (x y : Int) :
    (compareValue x y : Word n).toNat = if x > y then 4 else if x = y then 2 else 1 := by
  rw [compareValue_eq]
  split_ifs <;> exact toNat_ofNat_small (by decide)

theorem testBits_greaterBit_compareValue (x y : Int) :
    testBits (compareValue x y : Word n) greaterBit = decide (y < x) := by
  rw [testBits_greaterBit, bitOf, toNat_compareValue]
  split_ifs with hgt <;> simp [hgt]

theorem testBits_equalBit_compareValue (x y : Int) :
    testBits (compareValue x y : Word n) equalBit = decide (x = y) := by
  rw [testBits_equalBit, bitOf, toNat_compareValue]
  split_ifs with hgt heq
  · simp [hgt.ne']
  · simp [heq]
  · simp [heq]

theorem testBits_lessBit_compareValue (x y : Int) :
    testBits (compareValue x y : Word n) lessBit = decide (x < y) := by
  rw [testBits_lessBit, bitOf, toNat_compareValue]
  split_ifs with hgt heq
  · simp [hgt.le]
  · simp [heq]
  · simp [lt_of_le_of_ne (not_lt.mp hgt) heq]

/-- What JUMP.x asks of its condition register, x being the suffix of the mnemonic (R385 to R390). -/
def Relation.jumpTest (r : Relation) (v : Word n) : Bool :=
  match r with
  | .g => testBits v greaterBit
  | .ge => testBits v (greaterBit ||| equalBit)
  | .e => testBits v equalBit
  | .ne => !testBits v equalBit
  | .le => testBits v (lessBit ||| equalBit)
  | .l => testBits v lessBit

/-- The conditions on a compare result decide exactly the six relations of what was compared. -/
theorem Relation.jumpTest_compareValue (r : Relation) (x y : Int) :
    r.jumpTest (compareValue x y : Word n) = r.holds x y := by
  cases r with
  | g => exact testBits_greaterBit_compareValue x y
  | ge =>
    rw [jumpTest, testBits_or, testBits_greaterBit_compareValue, testBits_equalBit_compareValue, holds,
      ← Bool.decide_or, decide_eq_decide, le_iff_lt_or_eq, eq_comm]
  | e => exact testBits_equalBit_compareValue x y
  | ne => rw [jumpTest, testBits_equalBit_compareValue, holds, decide_not]
  | le =>
    rw [jumpTest, testBits_or, testBits_lessBit_compareValue, testBits_equalBit_compareValue, holds,
      ← Bool.decide_or, decide_eq_decide, le_iff_lt_or_eq]
  | l => exact testBits_lessBit_compareValue x y

theorem Mach.relative_congr {s t : Mach n} (h : t.pc = s.pc) (imm : Imm16) : t.relative imm = s.relative imm := by
  rw [Mach.relative_eq, Mach.relative_eq, h]

/-- CMP, then a jump on one relation of its result, reaches the pc of the jump on that relation of the operands. -/
theorem pc_cmp_then_jump (s : Mach n) {a b c : Reg} {imm : Imm16} {i j : Instr} (r : Relation)
    (hi : ∀ t : Mach n, exec i t.toState = (jumpIf t (r.jumpTest (t.reg c)) (t.relative imm)).lift)
    (hj : exec j s.toState = (jumpIf s (relSigned r (s.reg a) (s.reg b)) (s.relative imm)).lift) :
    ∃ t u v : Mach n, exec (.cmp c a b) s.toState = .next t.toState ∧ exec i t.toState = .next u.toState ∧
      exec j s.toState = .next v.toState ∧ u.pc = v.pc := by
  obtain ⟨t, ht, htc, htpc, -⟩ := setsReg_cmp s c a b
  refine ⟨t, _, _, ht, hi t, hj, ?_⟩
  rw [Mach.pc_setPc, Mach.pc_setPc, htc, r.jumpTest_compareValue, relSigned_eq, Mach.relative_congr htpc, htpc]

/-- Settles O30: JUMP.x tests of the compare result the relation x that CMPJUMPI.x tests of the operands. -/
theorem compareThenJump : Obligations.CompareThenJump := by
  intro n s a b c imm p hp
  simp only [List.mem_cons, List.not_mem_nil, or_false] at hp
  obtain rfl | rfl | rfl | rfl | rfl | rfl := hp
  · exact pc_cmp_then_jump s .g (fun _ => rfl) rfl
  · exact pc_cmp_then_jump s .ge (fun _ => rfl) rfl
  · exact pc_cmp_then_jump s .e (fun _ => rfl) rfl
  · exact pc_cmp_then_jump s .ne (fun _ => rfl) rfl
  · exact pc_cmp_then_jump s .le (fun _ => rfl) rfl
  · exact pc_cmp_then_jump s .l (fun _ => rfl) rfl

/-! ### Shifts and rotates (R218 to R225, 47_1opi_0opi.md R398 to R403) -/

theorem shiftCount_eq (v : Word n) : shiftCount v = min v.toNat n.bits := rfl

theorem shiftCount_le (v : Word n) : shiftCount v ≤ n.bits := Nat.min_le_right _ _

/-- Settles O31: each shift writes the pattern of its integer formula; a count is at most n, which SR1 needs for the ones
it brings in to fit in n bits. -/
theorem shifts : Obligations.Shifts := by
  refine fun n => ⟨fun s a b c => ?byRegister, fun s a imm => ?byImmediate⟩
  case byRegister =>
    rw [← shiftCount_eq, ← shiftLeft0_eq, ← shiftRightSign_eq, ← shiftRight0_eq, ← shiftLeft1_eq,
      ← shiftRight1_eq _ _ (shiftCount_le _)]
    exact ⟨setsReg_of rfl, setsReg_of rfl, setsReg_of rfl, setsReg_of rfl, setsReg_of rfl, setsReg_of rfl⟩
  case byImmediate =>
    rw [← sextImm_eq, ← shiftCount_eq, ← shiftLeft0_eq, ← shiftRightSign_eq, ← shiftRight0_eq, ← shiftLeft1_eq,
      ← shiftRight1_eq _ _ (shiftCount_le _)]
    exact ⟨setsReg_of rfl, setsReg_of rfl, setsReg_of rfl, setsReg_of rfl, setsReg_of rfl, setsReg_of rfl⟩

theorem rotateCount_lt (v : Word n) : rotateCount v < n.bits :=
  Nat.mod_lt _ (lt_of_lt_of_le (by decide) n.bits_ge)

/-- Settles O32: Laws.Arith gives the bits of a rotate by less than n, which the count reduced modulo n is. -/
theorem rotates : Obligations.Rotates := by
  intro n s a b c
  refine ⟨setsBits_of rfl fun k hk => bitOf_rotateLeft _ (rotateCount_lt _) hk, setsBits_of rfl fun k hk => ?ror⟩
  case ror => rw [bitOf_rotateRight _ (rotateCount_lt _) hk, rotateCount, Nat.add_mod_mod]

/-! ### The instructions without a meaning (R200 to R207, 60_exceptions.md R510) -/

/-- Settles O33: of the answers in `exec_cases`, only that of the eight gives this reason. -/
theorem packIsRefused : Obligations.PackIsRefused := by
  refine ⟨fun n s a b c => ?refused, fun i s h => ?only⟩
  case refused =>
    exact ⟨exec_of_isPack rfl _, exec_of_isPack rfl _, exec_of_isPack rfl _, exec_of_isPack rfl _,
      exec_of_isPack rfl _, exec_of_isPack rfl _, exec_of_isPack rfl _, exec_of_isPack rfl _⟩
  case only =>
    rcases exec_cases i s.mach with ⟨-, h'⟩ | ⟨-, ⟨hp, -⟩ | ⟨v, -, h'⟩ | ⟨t, h', -⟩⟩
    · cases h'.symm.trans h
    · exact hp
    · cases h'.symm.trans h
    · cases h'.symm.trans h

end Sys2Proof.Machine
end

section
/-!
Indexed loads, the stores of all three address forms, and the compare-jumps to a register
(43_3op_integer_mem_jump.md R242 to R262, 46_2opi_integer.md R364 to R367, 47_1opi_0opi.md R411 to R414). Each
instruction is one shared operation; what that operation changes and keeps, on either side of its condition, is said
once.
-/

namespace Sys2Proof.Machine

variable {n : Xlen}

/-! ### Loads (20_memory.md R67, R76) -/

theorem loadReg_of_outOfRange {s : Mach n} {p : Word n} {w : Width} (h : s.mem.size < p.toNat + w.bytes n) (a : Reg)
    (e : Extension) : loadReg s a p w e = raiseFault s (.memoryOutOfRange p.toNat (w.bytes n)) :=
  loadReg_next.mpr (.inr ⟨h, rfl⟩)

/-- A meaning that is a load of one width. -/
theorem loadsReg_of {i : Instr} {s : Mach n} {a : Reg} {p : Word n} (w : Width) {e : Extension}
    (h : exec i s.toState = (loadReg s a p w e).lift) : LoadsReg i s a p (w.bytes n) e := by
  refine ⟨fun hin => ?inside, fun hout => ?outside⟩
  case inside =>
    rw [loadReg_of_inRange hin, Mach.load_eq] at h
    exact setsReg_of h
  case outside =>
    rw [loadReg_of_outOfRange hout] at h
    exact raisesFault_of h

/-- Settles O35: the seven are loads of the widths and extensions their names say, at one address. -/
theorem indexedLoads : Obligations.IndexedLoads := fun _ s _ b c =>
  ⟨s.indexed_eq b c, loadsReg_of .register rfl, loadsReg_of .bits8 rfl, loadsReg_of .bits8 rfl,
    loadsReg_of .bits16 rfl, loadsReg_of .bits16 rfl, loadsReg_of .bits32 rfl, loadsReg_of .bits32 rfl⟩

/-! ### Stores (20_memory.md R67, R77) -/

theorem storeValue_of_inRange {s : Mach n} {p : Word n} {w : Width} (h : p.toNat + w.bytes n ≤ s.mem.size)
    (v : Word n) : storeValue s p w v = .next (s.store p w v) :=
  storeValue_next.mpr (.inl ⟨h, rfl⟩)

theorem storeValue_of_outOfRange {s : Mach n} {p : Word n} {w : Width} (h : s.mem.size < p.toNat + w.bytes n)
    (v : Word n) : storeValue s p w v = raiseFault s (.memoryOutOfRange p.toNat (w.bytes n)) :=
  storeValue_next.mpr (.inr ⟨h, rfl⟩)

/-- A meaning that is a store of one width. -/
theorem storesValue_of {i : Instr} {s : Mach n} {p v : Word n} (w : Width)
    (h : exec i s.toState = (storeValue s p w v).lift) : StoresValue i s p (w.bytes n) v := by
  refine ⟨fun hin => ?inside, fun hout => ?outside⟩
  case inside =>
    rw [storeValue_of_inRange hin] at h
    exact ⟨s.store p w v, h, holdsBytes_writeBE _ _ _ _, s.pc_store p w v, s.keeps_store p w v⟩
  case outside =>
    rw [storeValue_of_outOfRange hout] at h
    exact raisesFault_of h

/-- Settles O38: at each of the three addresses, the four are stores of the widths their names say. -/
theorem stores : Obligations.Stores := fun _ s _ b c imm =>
  ⟨s.indexed_eq b c, s.based_eq b imm, s.relative_eq imm,
    storesValue_of .register rfl, storesValue_of .bits8 rfl, storesValue_of .bits16 rfl, storesValue_of .bits32 rfl,
    storesValue_of .register rfl, storesValue_of .bits8 rfl, storesValue_of .bits16 rfl, storesValue_of .bits32 rfl,
    storesValue_of .register rfl, storesValue_of .bits8 rfl, storesValue_of .bits16 rfl, storesValue_of .bits32 rfl⟩

/-! ### Jumps on a relation of two registers (10_state.md R34) -/

/-- The relation of two integers as a proposition: what `Relation.holds` decides (`Relation.holds_iff`). -/
def Relation.Holds (r : Relation) (x y : Int) : Prop :=
  match r with
  | .g => x > y
  | .ge => x ≥ y
  | .e => x = y
  | .ne => x ≠ y
  | .le => x ≤ y
  | .l => x < y

theorem Relation.holds_iff (r : Relation) (x y : Int) : r.holds x y = true ↔ r.Holds x y := by
  cases r <;> exact decide_eq_true_iff

theorem relSigned_iff (r : Relation) (x y : Word n) : relSigned r x y = true ↔ r.Holds (sInt x) (sInt y) := by
  rw [relSigned_eq, r.holds_iff]

theorem relUnsigned_iff (r : Relation) (x y : Word n) : relUnsigned r x y = true ↔ r.Holds (uInt x) (uInt y) := by
  rw [relUnsigned_eq, r.holds_iff]

theorem Mach.keeps_setPc (s : Mach n) (p : Word n) : OnlyRegs s (s.setPc p) [] :=
  ⟨fun r _ => s.reg_setPc p r, ⟨rfl, fun _ => rfl⟩, ⟨rfl, rfl, rfl⟩, s.status_setPc p⟩

/-- A meaning that is a jump on a condition. -/
theorem goesIf_of {i : Instr} {s : Mach n} {f : Bool} {c : Prop} {target : Word n} (hf : f = true ↔ c)
    (h : exec i s.toState = (jumpIf s f target).lift) : GoesIf i s c target :=
  ⟨_, h, fun hc => if_pos (hf.mpr hc), fun hc => if_neg (hf.not.mpr hc), s.keeps_setPc _⟩

/-- Settles O39: the mnemonic's suffix names the relation, its U the reading of the operands. -/
theorem compareJumpToRegister : Obligations.CompareJumpToRegister := fun _ _ _ _ _ =>
  ⟨goesIf_of (relSigned_iff .g _ _) rfl, goesIf_of (relSigned_iff .ge _ _) rfl, goesIf_of (relSigned_iff .e _ _) rfl,
    goesIf_of (relSigned_iff .ne _ _) rfl, goesIf_of (relSigned_iff .le _ _) rfl, goesIf_of (relSigned_iff .l _ _) rfl,
    goesIf_of (relUnsigned_iff .g _ _) rfl, goesIf_of (relUnsigned_iff .ge _ _) rfl,
    goesIf_of (relUnsigned_iff .le _ _) rfl, goesIf_of (relUnsigned_iff .l _ _) rfl⟩

end Sys2Proof.Machine
end

section
/-!
The 2OP integer group that writes registers or skips (44_2op_integer.md R282 to R288, R302 to R311): negation, absolute
values, copies, exchanges and the compare-skips.
-/

namespace Sys2Proof.Machine

variable {n : Xlen}

/-! ### The values written (R282 to R284, R288) -/

theorem neg_eq_wordOf (x : Word n) : 0 - x = wordOf (-sInt x) := by
  rw [wordOf_neg, wordOf_sInt, zero_sub]

theorem negValue_of_nonneg {x : Word n} (h : 0 ≤ sInt x) : negValue x = wordOf (-sInt x) := by
  rw [negValue, ← sInt_eq_toInt, neg_eq_wordOf]
  rcases h.lt_or_eq with hpos | hzero
  · rw [if_pos hpos]
  · rw [if_neg hzero.not_lt, if_pos hzero.symm, ← hzero, neg_zero, hzero, wordOf_sInt]

theorem negValue_of_neg_copy {x : Word n} (h : sInt x < 0) (hc : Config.negNegative = .copy) : negValue x = x := by
  rw [negValue, ← sInt_eq_toInt, if_neg h.not_gt, if_neg h.ne, hc]

theorem negValue_of_neg_negate {x : Word n} (h : sInt x < 0) (hc : Config.negNegative = .negate) :
    negValue x = wordOf (-sInt x) := by
  rw [negValue, ← sInt_eq_toInt, if_neg h.not_gt, if_neg h.ne, hc, neg_eq_wordOf]

theorem absValue_eq (x : Word n) : absValue x = wordOf |sInt x| := by
  rw [absValue, ← sInt_eq_toInt, neg_eq_wordOf]
  split
  next h => rw [abs_of_neg h]
  next h => rw [abs_of_nonneg (not_lt.mp h), wordOf_sInt]

/-- The negative absolute value always fits in n bits, where the positive one need not. -/
theorem sInt_negAbsValue (x : Word n) : sInt (negAbsValue x) = -|sInt x| := by
  have hlower := sInt_lower x
  have hupper := sInt_upper x
  rw [negAbsValue, ← sInt_eq_toInt, neg_eq_wordOf]
  split
  next h => rw [abs_of_pos h, sInt_wordOf (by omega) (by omega)]
  next h => rw [abs_of_nonpos (not_lt.mp h), neg_neg]

theorem not_eq_wordOf (x : Word n) : ~~~x = wordOf (2 ^ n.bits - 1 - uInt x) := by
  have hmod : (2 ^ n.bits - 1 - uInt x) % 2 ^ n.bits = (-uInt x - 1) % 2 ^ n.bits := by
    rw [show (2 : Int) ^ n.bits - 1 - uInt x = -uInt x - 1 + 2 ^ n.bits by ring, Int.add_emod_right]
  rw [wordOf_congr hmod, wordOf_sub, wordOf_neg, wordOf_uInt, BitVec.not_eq_neg_add]
  exact congrArg (-x - ·) (wordOf_natCast 1).symm

/-! ### The meanings -/

/-- A meaning that writes one register, told by another form of its value. -/
theorem setsReg_of_eq {i : Instr} {s : Mach n} {a : Reg} {v w : Word n}
    (h : exec i s.toState = (writeReg s a v).lift) (hv : v = w) : SetsReg i s a w :=
  hv ▸ setsReg_of h

/-- The exchange needs no distinct registers: on one register it writes back the old value (R285). -/
theorem setsPair_swap (s : Mach n) (a b : Reg) : SetsPair (.swap a b) s a b (s.reg b) (s.reg a) := by
  refine ⟨(s.setReg a (s.reg b)).setReg b (s.reg a), rfl, ?_, Mach.reg_setReg_self .., rfl,
    s.keeps_setReg_setReg a b _ _⟩
  by_cases hab : a = b
  · rw [hab, Mach.reg_setReg_self]
  · rw [Mach.reg_setReg_ne _ _ hab, Mach.reg_setReg_self]

/-- Settles O43: each instruction writes one value, which the laws above read as an integer. -/
theorem unaryOperations : Obligations.UnaryOperations := by
  intro n s a b
  refine ⟨fun h => setsReg_of_eq rfl (negValue_of_nonneg h), fun h => ?negNegative,
    setsReg_of_eq rfl (absValue_eq _), ⟨_, setsReg_of rfl, sInt_negAbsValue _⟩, setsPair_swap s a b, setsReg_of rfl,
    fun hab => setsPair_of hab rfl, ?coinciding, setsReg_of_eq rfl (not_eq_wordOf _)⟩
  case negNegative =>
    split
    next hc => exact setsReg_of_eq rfl (negValue_of_neg_copy h hc)
    next hc => exact setsReg_of_eq rfl (negValue_of_neg_negate h hc)
  case coinciding =>
    rintro rfl
    exact exec_of_coinciding rfl s

/-! ### Skips (R302 to R311, 10_state.md R34) -/

/-- A skip is a jump over the next word. -/
theorem skipIf_eq_jumpIf (s : Mach n) (f : Bool) : skipIf s f = jumpIf s f (wordOf (uInt s.pc + 4)) := by
  rw [← pc_advance_eq]
  cases f <;> rfl

/-- A meaning that is a skip on a condition. -/
theorem goesIf_of_skipIf {i : Instr} {s : Mach n} {f : Bool} {c : Prop} (hf : f = true ↔ c)
    (h : exec i s.toState = (skipIf s f).lift) : GoesIf i s c (wordOf (uInt s.pc + 4)) :=
  goesIf_of hf (h.trans (congrArg _ (skipIf_eq_jumpIf s f)))

/-- Settles O40: the mnemonic's suffix names the relation, its U the reading of the operands. -/
theorem compareSkip : Obligations.CompareSkip := fun _ _ _ _ =>
  ⟨goesIf_of_skipIf (relSigned_iff .g _ _) rfl, goesIf_of_skipIf (relSigned_iff .ge _ _) rfl,
    goesIf_of_skipIf (relSigned_iff .e _ _) rfl, goesIf_of_skipIf (relSigned_iff .ne _ _) rfl,
    goesIf_of_skipIf (relSigned_iff .le _ _) rfl, goesIf_of_skipIf (relSigned_iff .l _ _) rfl,
    goesIf_of_skipIf (relUnsigned_iff .g _ _) rfl, goesIf_of_skipIf (relUnsigned_iff .ge _ _) rfl,
    goesIf_of_skipIf (relUnsigned_iff .le _ _) rfl, goesIf_of_skipIf (relUnsigned_iff .l _ _) rfl⟩

end Sys2Proof.Machine
end

section
/-!
The stack (44_2op_integer.md R281, R289 to R301, R395, 45_1op.md R336, R337): pushes, calls and pops as single
instructions, then a pop after a push and a return after a call. The pairs are derived from what the single
instructions keep, by composing frames.
-/

namespace Sys2Proof.Machine

variable {n : Xlen}

/-! ### Composing what two changes keep -/

theorem KeepsRegs.trans {s t u : Mach n} {l l' : List Reg} (h : KeepsRegs s t l) (h' : KeepsRegs t u l') :
    KeepsRegs s u (l ++ l') := by
  intro r hr
  obtain ⟨hl, hl'⟩ : r ∉ l ∧ r ∉ l' := by simpa using hr
  rw [h' r hl', h r hl]

/-- A register that has its old value again need not be listed. -/
theorem KeepsRegs.of_restored {s t : Mach n} {l l' : List Reg} (h : KeepsRegs s t l)
    (hl : ∀ r ∈ l, r ∉ l' → t.reg r = s.reg r) : KeepsRegs s t l' := by
  intro r hr
  by_cases hrl : r ∈ l
  · exact hl r hrl hr
  · exact h r hrl

theorem KeepsMemoryOutside.trans {s t u : Mach n} {p : Word n} {k : Nat} (h : KeepsMemoryOutside s t p k)
    (h' : KeepsMemoryOutside t u p k) : KeepsMemoryOutside s u p k := by
  obtain ⟨hsize, hget⟩ := h
  obtain ⟨hsize', hget'⟩ := h'
  exact ⟨hsize'.trans hsize, fun b hb => (hget' b hb).trans (hget b hb)⟩

theorem KeepsDevices.trans {s t u : Mach n} (h : KeepsDevices s t) (h' : KeepsDevices t u) : KeepsDevices s u := by
  obtain ⟨h1, h2, htty⟩ := h
  obtain ⟨h1', h2', htty'⟩ := h'
  exact ⟨h1'.trans h1, h2'.trans h2, htty'.trans htty⟩

theorem OnlyRegsAndBytes.size_eq {s t : Mach n} {l : List Reg} {p : Word n} {k : Nat}
    (h : OnlyRegsAndBytes s t l p k) : t.mem.size = s.mem.size := by
  obtain ⟨-, ⟨hsize, -⟩, -⟩ := h
  exact hsize

theorem OnlyRegsAndBytes.trans {s t u : Mach n} {l l' : List Reg} {p : Word n} {k : Nat}
    (h : OnlyRegsAndBytes s t l p k) (h' : OnlyRegsAndBytes t u l' p k) : OnlyRegsAndBytes s u (l ++ l') p k := by
  obtain ⟨hregs, hmem, hdev, hstatus⟩ := h
  obtain ⟨hregs', hmem', hdev', hstatus'⟩ := h'
  exact ⟨hregs.trans hregs', hmem.trans hmem', hdev.trans hdev', hstatus'.trans hstatus⟩

theorem OnlyRegs.onlyRegsAndBytes {s t : Mach n} {l : List Reg} (h : OnlyRegs s t l) (p : Word n) (k : Nat) :
    OnlyRegsAndBytes s t l p k := by
  obtain ⟨hregs, ⟨hsize, hget⟩, hdev, hstatus⟩ := h
  exact ⟨hregs, ⟨hsize, fun b _ => hget b⟩, hdev, hstatus⟩

theorem OnlyRegsAndBytes.of_restored {s t : Mach n} {l l' : List Reg} {p : Word n} {k : Nat}
    (h : OnlyRegsAndBytes s t l p k) (hl : ∀ r ∈ l, r ∉ l' → t.reg r = s.reg r) : OnlyRegsAndBytes s t l' p k :=
  ⟨h.1.of_restored hl, h.2⟩

theorem Mach.keeps_store_setReg (s : Mach n) (p : Word n) (w : Width) (v : Word n) (r : Reg) (x : Word n) :
    OnlyRegsAndBytes s ((s.store p w v).setReg r x) [r] p (w.bytes n) :=
  (s.keeps_store p w v).trans ((Mach.keeps_setReg _ r x).onlyRegsAndBytes p _)

/-- `raisesFault_of`, for an operation whose answer Laws.Ops gives as a machine. -/
theorem raisesFault_of_takeFault {i : Instr} {s : Mach n} {r : MachResult n} {f : Fault}
    (h : exec i s.toState = r.lift) (hr : r = .next (s.takeFault (s.pc - 4) f)) : RaisesFault i s f :=
  raisesFault_of (h.trans (congrArg _ hr))

/-! ### Pushes (R291 to R294, R337) -/

/-- A meaning that is a push of one width. -/
theorem pushesValue_of {i : Instr} {s : Mach n} {p : Reg} {v : Word n} (w : Width)
    (h : exec i s.toState = (pushValue s p w v).lift) : PushesValue i s p (w.bytes n) v s.pc := by
  refine ⟨fun hin => ?inside, fun hout => raisesFault_of_takeFault h (pushValue_next.mpr (.inr ⟨hout, rfl⟩))⟩
  case inside =>
    rw [pushValue_next.mpr (.inl ⟨hin, rfl⟩)] at h
    exact ⟨_, h, holdsBytes_writeBE _ _ _ _, (Mach.reg_setReg_self ..).trans (pointer_up ..), rfl,
      s.keeps_store_setReg ..⟩

/-- Settles O44: the five are pushes of the widths their names say. -/
theorem pushes : Obligations.Pushes := fun _ _ _ _ =>
  ⟨pushesValue_of .register rfl, pushesValue_of .bits8 rfl, pushesValue_of .bits16 rfl, pushesValue_of .bits32 rfl,
    pushesValue_of .register rfl⟩

/-! ### Calls (R289, R290, R395) -/

/-- A call is the push of pc, after which pc goes to the target. -/
theorem pushesValue_of_callTo {i : Instr} {s : Mach n} {p : Reg} {target : Word n}
    (h : exec i s.toState = (callTo s p target).lift) : PushesValue i s p n.bytes s.pc target := by
  refine ⟨fun hin => ?inside, fun hout => raisesFault_of_takeFault h (callTo_next.mpr (.inr ⟨hout, rfl⟩))⟩
  case inside =>
    rw [callTo_next.mpr (.inl ⟨hin, rfl⟩)] at h
    exact ⟨_, h, holdsBytes_writeBE _ _ _ _, (Mach.reg_setReg_self ..).trans (pointer_up ..), rfl,
      (s.keeps_store_setReg _ .register _ _ _).trans ((Mach.keeps_setPc _ target).onlyRegsAndBytes _ _)⟩

theorem pushesValue_call (s : Mach n) (a b : Reg) : PushesValue (.call a b) s b n.bytes s.pc (s.reg a) :=
  pushesValue_of_callTo rfl

theorem pushesValue_calli (s : Mach n) (a : Reg) (imm : Imm16) :
    PushesValue (.calli a imm) s a n.bytes s.pc (wordOf (uInt s.pc + sImm imm)) := by
  rw [← Mach.relative_eq]
  exact pushesValue_of_callTo rfl

theorem exec_branch (s : Mach n) (a b : Reg) :
    exec (.branch a b) s.toState = (branchTo s b (s.reg a)).lift := (rfl)

/-- Settles O46: the two calls are the push above; BRANCH is the store of pc alone. -/
theorem calls : Obligations.Calls := by
  intro n s a b imm
  refine ⟨pushesValue_call s a b, pushesValue_calli s a imm, fun hin => ?inside,
    fun hout => raisesFault_of_takeFault (exec_branch s a b) (branchTo_next.mpr (.inr ⟨hout, rfl⟩))⟩
  case inside =>
    have h := exec_branch s a b
    rw [branchTo_next.mpr (.inl ⟨hin, rfl⟩)] at h
    exact ⟨_, h, holdsBytes_writeBE _ _ _ _, rfl,
      (s.keeps_store _ .register _).trans ((Mach.keeps_setPc _ (s.reg a)).onlyRegsAndBytes _ _)⟩

/-! ### Pops (R295 to R301) -/

/-- A meaning that is a pop of one width and extension. -/
theorem popsReg_of {i : Instr} {s : Mach n} {a p : Reg} {w : Width} {e : Extension}
    (h : exec i s.toState = (popReg s a p w e).lift) : PopsReg i s a p w e := by
  refine ⟨fun hap hin => ?inside,
    fun hap hout => raisesFault_of_takeFault h (popReg_next.mpr ⟨hap, .inr ⟨hout, rfl⟩⟩), ?coinciding⟩
  case inside =>
    rw [popReg_next.mpr ⟨hap, .inl ⟨hin, rfl⟩⟩] at h
    refine ⟨_, h, ?datum, (Mach.reg_setReg_self ..).trans (s.topAddress_eq p w), holdsBytes_writeBE _ _ _ 0, rfl,
      (s.keeps_store _ w 0).trans ((Mach.keeps_setReg_setReg _ a p _ _).onlyRegsAndBytes _ _)⟩
    case datum => rw [Mach.reg_setReg_ne _ _ hap, Mach.reg_setReg_self, Mach.load_eq]
  case coinciding =>
    rintro rfl
    exact h.trans (lift_refused.mpr (popReg_same s a w e))

/-- Settles O45: the seven are pops of the widths and extensions their names say. -/
theorem pops : Obligations.Pops := fun _ _ _ _ =>
  ⟨popsReg_of rfl, popsReg_of rfl, popsReg_of rfl, popsReg_of rfl, popsReg_of rfl, popsReg_of rfl, popsReg_of rfl⟩

/-- A meaning that pops pc, of an access in range: nothing is cleared (45_1op.md R336, R338). -/
theorem exists_next_of_popPc {i : Instr} {s : Mach n} {p : Reg} (h : exec i s.toState = (popPc s p).lift)
    (hin : (s.topAddress p .register).toNat + n.bytes ≤ s.mem.size) :
    ∃ t : Mach n, exec i s.toState = .next t.toState ∧
      t.pc = wordOf (bytesValue s.mem (s.topAddress p .register).toNat n.bytes) ∧
      t.reg p = wordOf (uInt (s.reg p) - n.bytes) ∧ OnlyRegs s t [p] := by
  rw [popPc_next.mpr (.inl ⟨hin, rfl⟩)] at h
  refine ⟨_, h, Mach.load_eq s _ .register .zero, (Mach.reg_setReg_self ..).trans (s.topAddress_eq p .register), ?_⟩
  exact Mach.keeps_setReg (s.setPc _) p _

/-! ### What a pop finds after a push (R281) -/

/-- The bytes of a datum, read as a number, are its low k bytes. -/
theorem HoldsBytes.bytesValue_eq {m : Memory} {p k v : Nat} (h : HoldsBytes m p k v) :
    bytesValue m p k = v % 256 ^ k := by
  have hbytes : bytesValue m p k = bytesValue (m.writeBE p k v) p k :=
    Finset.sum_congr rfl fun j hj => by
      rw [h j (Finset.mem_range.mp hj), holdsBytes_writeBE m p k v j (Finset.mem_range.mp hj)]
  rw [hbytes, ← Memory.readBE_eq, Memory.readBE_writeBE]

/-- The RB bytes of a register value, read as a number, are that value. -/
theorem HoldsBytes.wordOf_bytesValue {m : Memory} {p : Nat} {v : Word n} (h : HoldsBytes m p n.bytes v.toNat) :
    (wordOf (bytesValue m p n.bytes) : Word n) = v := by
  rw [h.bytesValue_eq, ← n.two_pow_bytes, Nat.mod_eq_of_lt v.isLt]
  exact wordOf_uInt v

/-- Moving a pointer up and down by one size restores it, also across 2^n (20_memory.md R66). -/
theorem pointer_up_down (v : Word n) (k : Int) : (wordOf (uInt (wordOf (uInt v + k) : Word n) - k) : Word n) = v := by
  rw [wordOf_sub, wordOf_uInt, ← wordOf_sub, add_sub_cancel_right, wordOf_uInt]

/-- The top element after a push is the slot pushed to. -/
theorem Mach.topAddress_of_pushed {s t : Mach n} {p : Reg} {w : Width}
    (h : t.reg p = wordOf (uInt (s.reg p) + w.bytes n)) : t.topAddress p w = s.reg p := by
  rw [Mach.topAddress_eq, h, pointer_up_down]

/-- Settles O48: the pop's slot is the push's, so both keep the bytes outside it; its datum is the one pushed. -/
theorem popUndoesPush : Obligations.PopUndoesPush := by
  intro n s a p d hdp hin
  obtain ⟨t, het, hslot, htp, htpc, hst⟩ := (pushesValue_of (i := .pushr a p) (s := s) .register rfl).1 hin
  have htop : t.topAddress p .register = s.reg p := Mach.topAddress_of_pushed htp
  obtain ⟨u, heu, hud, hup, hcleared, hupc, htu⟩ :=
    (popsReg_of (i := .popr d p) (s := t) rfl).1 hdp (by rw [htop, hst.size_eq]; exact hin)
  rw [htop] at hud hcleared htu
  have hrestored : u.reg p = s.reg p := by rw [hup, htp]; exact pointer_up_down ..
  refine ⟨t, u, het, heu, hud.trans hslot.wordOf_bytesValue, hrestored, hcleared, (hst.trans htu).of_restored ?_,
    hupc.trans htpc⟩
  intro r hr hrd
  have hrd' : r ≠ d := by simpa using hrd
  obtain rfl : r = p := by simpa [hrd'] using hr
  exact hrestored

/-- Settles O49: the return's slot is the call's, which holds the address of the next word. -/
theorem returnUndoesCall : Obligations.ReturnUndoesCall := by
  intro n s a b imm hin i hi
  obtain ⟨target, hcall⟩ : ∃ target, PushesValue i s b n.bytes s.pc target := by
    rcases List.mem_pair.mp hi with rfl | rfl
    · exact ⟨_, pushesValue_call s a b⟩
    · exact ⟨_, pushesValue_calli s b imm⟩
  obtain ⟨t, het, hslot, htb, -, hst⟩ := hcall.1 hin
  have htop : t.topAddress b .register = s.reg b := Mach.topAddress_of_pushed htb
  obtain ⟨u, heu, hupc, hub, htu⟩ :=
    exists_next_of_popPc (i := .ret b) (s := t) (p := b) rfl (by rw [htop, hst.size_eq]; exact hin)
  have hrestored : u.reg b = s.reg b := by rw [hub, htb, pointer_up_down]
  refine ⟨t, u, het, heu, ?pc, (hst.trans (htu.onlyRegsAndBytes _ _)).of_restored ?restored⟩
  case pc =>
    rw [hupc, htop]
    exact hslot.wordOf_bytesValue
  case restored =>
    intro r hr _
    obtain rfl : r = b := by simpa using hr
    exact hrestored

end Sys2Proof.Machine
end

section
/-!
The 1OP integer group and the immediate loads (45_1op.md R331 to R338, 47_1opi_0opi.md R396, R397): constants and pc
into a register, and the ways back from a subroutine. PUSHPC is with the pushes above.
-/

namespace Sys2Proof.Machine

variable {n : Xlen}

/-! ### Constants and pc (R331 to R334, R396, R397) -/

theorem allOnes_eq_wordOf : (BitVec.allOnes n.bits : Word n) = wordOf (2 ^ n.bits - 1) := by
  have h := not_eq_wordOf (0#n.bits : Word n)
  rwa [BitVec.not_zero, show uInt (0#n.bits : Word n) = 0 by simp [uInt], sub_zero] at h

/-- Settles O50: each of the six writes one register; the laws give the last three values as patterns of integers. -/
theorem constantsAndPc : Obligations.ConstantsAndPc := fun _ _ _ imm =>
  ⟨setsReg_of rfl, setsReg_of rfl, setsReg_of rfl, setsReg_of_eq rfl allOnes_eq_wordOf,
    setsReg_of_eq rfl (sextImm_eq imm), setsReg_of_eq rfl (zextImm_eq imm)⟩

/-! ### Returns (R335, R336, R338) -/

/-- RET and POPPC have one meaning, the pop of pc. -/
theorem exec_eq_popPc {i : Instr} {a : Reg} (hi : i ∈ [Instr.ret a, .poppc a]) (s : Mach n) :
    exec i s.toState = (popPc s a).lift := by
  rcases List.mem_pair.mp hi with rfl | rfl
  · rfl
  · rfl

/-- JSR_COROUTINE is a jump on a condition that always holds. -/
theorem exec_jsrCoroutine (s : Mach n) (a : Reg) :
    exec (.jsrCoroutine a) s.toState = (jumpIf s true (s.reg a)).lift := (rfl)

/-- Settles O47: both clauses on the range are those of the pop of pc; the coroutine jump is unconditional. -/
theorem returns : Obligations.Returns := fun _ s a =>
  ⟨fun hin _ hi => exists_next_of_popPc (exec_eq_popPc hi s) hin,
    fun hout _ hi => raisesFault_of_takeFault (exec_eq_popPc hi s) (popPc_next.mpr (.inr ⟨hout, rfl⟩)),
    goesIf_of (by decide) (exec_jsrCoroutine s a)⟩

end Sys2Proof.Machine
end

section
/-!
Arithmetic, logic and loads of a register and an immediate (46_2opi_integer.md R351 to R354, R356 to R362,
49_high_immediate_groups.md R471 to R476): the operations of the register forms, on the extended immediate.
-/

namespace Sys2Proof.Machine

variable {n : Xlen}

/-! ### Arithmetic and logic (R351 to R354, R471 to R476) -/

/-- Bit 15 of the immediate is its sign, which fills the bits above (30_encoding.md R102). -/
theorem bitOf_sextImm (imm : Imm16) {k : Nat} (hk : k < n.bits) :
    bitOf (sextImm imm : Word n) k = imm.getLsbD (min k 15) := by
  rw [bitOf_eq_getLsbD, sextImm, BitVec.getLsbD_signExtend, decide_eq_true hk, Bool.true_and]
  split
  next h => rw [min_eq_left (Nat.le_of_lt_succ h)]
  next h => rw [min_eq_right (by omega), BitVec.msb_eq_getLsbD_last]

/-- Settles O26: `wordOf` of a sum or difference of integers is that of their patterns; the logic is bitwise on the
sign-extended immediate, whose bits `bitOf_sextImm` gives. -/
theorem immediateArithmeticAndLogic : Obligations.ImmediateArithmeticAndLogic := by
  intro n s a b imm
  simp only [wordOf_add, wordOf_sub, wordOf_uInt, ← sextImm_eq, ← zextImm_eq]
  refine ⟨setsReg_of rfl, setsReg_of rfl, setsReg_of rfl, setsReg_of rfl, setsBits_of rfl fun k hk => ?and,
    setsBits_of rfl fun k hk => ?or, setsBits_of rfl fun k hk => ?xor, setsBits_of rfl fun k hk => ?nand,
    setsBits_of rfl fun k hk => ?nor, setsBits_of rfl fun k hk => ?xnor⟩
  case and => rw [bitOf_and, bitOf_sextImm imm hk]
  case or => rw [bitOf_or, bitOf_sextImm imm hk]
  case xor => rw [bitOf_xor, bitOf_sextImm imm hk]
  case nand => rw [bitOf_not _ hk, bitOf_and, bitOf_sextImm imm hk]
  case nor => rw [bitOf_not _ hk, bitOf_or, bitOf_sextImm imm hk]
  case xnor => rw [bitOf_not _ hk, bitOf_xor, bitOf_sextImm imm hk, bne, Bool.not_not]

/-! ### Loads (R356 to R362) -/

/-- Settles O36: the seven are loads of the widths and extensions their names say, at one address. -/
theorem basedLoads : Obligations.BasedLoads := fun _ s _ b imm =>
  ⟨s.based_eq b imm, loadsReg_of .register rfl, loadsReg_of .bits8 rfl, loadsReg_of .bits8 rfl,
    loadsReg_of .bits16 rfl, loadsReg_of .bits16 rfl, loadsReg_of .bits32 rfl, loadsReg_of .bits32 rfl⟩

end Sys2Proof.Machine
end

section
/-!
The relative loads and the relative jumps on one register (47_1opi_0opi.md R382 to R394, R404 to R410, R415): what
each jump asks of x[a], read as condition bits or as a number.
-/

namespace Sys2Proof.Machine

variable {n : Xlen}

/-! ### Loads (R404 to R410) -/

/-- Settles O37: the seven are loads of the widths and extensions their names say, at one address. -/
theorem relativeLoads : Obligations.RelativeLoads := fun _ s _ imm =>
  ⟨s.relative_eq imm, loadsReg_of .register rfl, loadsReg_of .bits8 rfl, loadsReg_of .bits8 rfl,
    loadsReg_of .bits16 rfl, loadsReg_of .bits16 rfl, loadsReg_of .bits32 rfl, loadsReg_of .bits32 rfl⟩

/-! ### Jumps on condition bits (R382 to R390, 10_state.md R35) -/

/-- A meaning that is a jump to the pc-relative address, on a condition. -/
theorem goesIf_of_relative {i : Instr} {s : Mach n} {f : Bool} {c : Prop} {imm : Imm16} (hf : f = true ↔ c)
    (h : exec i s.toState = (jumpIf s f (s.relative imm)).lift) : GoesIf i s c (wordOf (uInt s.pc + sImm imm)) :=
  s.relative_eq imm ▸ goesIf_of hf h

theorem testBits_greaterBit_or_equalBit (v : Word n) :
    testBits v (greaterBit ||| equalBit) = true ↔ bitOf v 2 = true ∨ bitOf v 1 = true := by
  rw [testBits_or, testBits_greaterBit, testBits_equalBit, Bool.or_eq_true]

theorem testBits_lessBit_or_equalBit (v : Word n) :
    testBits v (lessBit ||| equalBit) = true ↔ bitOf v 0 = true ∨ bitOf v 1 = true := by
  rw [testBits_or, testBits_lessBit, testBits_equalBit, Bool.or_eq_true]

theorem not_testBits_equalBit (v : Word n) : (!testBits v equalBit) = true ↔ bitOf v 1 = false := by
  rw [testBits_equalBit, Bool.not_eq_true']

/-- Settles O51: each jump tests the mask of its bits; a mask of two bits (GE, LE) asks for either, NE for the Equal bit
to be clear. -/
theorem jumpOnConditionBits : Obligations.JumpOnConditionBits := fun _ _ _ _ =>
  ⟨goesIf_of_relative (Bool.eq_iff_iff.mp (testBits_carryBit _)) rfl,
    goesIf_of_relative (Bool.eq_iff_iff.mp (testBits_borrowBit _)) rfl,
    goesIf_of_relative (Bool.eq_iff_iff.mp (testBits_overflowBit _)) rfl,
    goesIf_of_relative (Bool.eq_iff_iff.mp (testBits_greaterBit _)) rfl,
    goesIf_of_relative (testBits_greaterBit_or_equalBit _) rfl,
    goesIf_of_relative (Bool.eq_iff_iff.mp (testBits_equalBit _)) rfl,
    goesIf_of_relative (not_testBits_equalBit _) rfl,
    goesIf_of_relative (testBits_lessBit_or_equalBit _) rfl,
    goesIf_of_relative (Bool.eq_iff_iff.mp (testBits_lessBit _)) rfl⟩

/-! ### Jumps on the value of the register (R391 to R394, R415) -/

theorem eq_zero_iff_uInt (v : Word n) : v = 0 ↔ uInt v = 0 := by
  rw [uInt_eq, Int.natCast_eq_zero, BitVec.toNat_eq, BitVec.ofNat_eq_ofNat, BitVec.toNat_ofNat, Nat.zero_mod]

theorem beq_zero_iff_uInt (v : Word n) : (v == 0) = true ↔ uInt v = 0 := by
  rw [beq_iff_eq, eq_zero_iff_uInt]

theorem bne_zero_iff_uInt (v : Word n) : (v != 0) = true ↔ uInt v ≠ 0 := by
  rw [bne_iff_ne, ne_eq, eq_zero_iff_uInt]

theorem decide_toInt_nonneg_iff (v : Word n) : decide (0 ≤ v.toInt) = true ↔ 0 ≤ sInt v := by
  rw [decide_eq_true_iff, sInt_eq_toInt]

theorem decide_toInt_neg_iff (v : Word n) : decide (v.toInt < 0) = true ↔ sInt v < 0 := by
  rw [decide_eq_true_iff, sInt_eq_toInt]

/-- JUMP is a jump on a condition that always holds. -/
theorem exec_jump (s : Mach n) (imm : Imm16) :
    exec (.jump imm) s.toState = (jumpIf s true (s.relative imm)).lift := (rfl)

/-- Settles O52: four tests of the whole register as a number, and the test that always holds. -/
theorem jumpOnValueAndAlways : Obligations.JumpOnValueAndAlways := fun _ s _ imm =>
  ⟨goesIf_of_relative (beq_zero_iff_uInt _) rfl, goesIf_of_relative (bne_zero_iff_uInt _) rfl,
    goesIf_of_relative (decide_toInt_nonneg_iff _) rfl, goesIf_of_relative (decide_toInt_neg_iff _) rfl,
    goesIf_of_relative (by decide) (exec_jump s imm)⟩

end Sys2Proof.Machine
end

section
/-!
Faults (60_exceptions.md R500 to R508, R514): a fault leaves the state before the instruction, and the state it leaves
has the fault that is recorded. Which operation raises which fault is said once for each; the instructions that can
fault are then those operations on the operands that the rule of the fault names.
-/

namespace Sys2Proof.Machine

variable {n : Xlen}

/-! ### The state a fault leaves (R500) -/

/-- A fault of the instruction's own rule puts pc back to the instruction. -/
theorem takeFault_advance (s : Mach n) (f : Fault) :
    s.advance.takeFault (s.advance.pc - 4) f = s.setStatus (.faulted f) := by
  rw [Mach.pc_advance, BitVec.add_sub_cancel]
  rfl

/-- An instruction that faults has distinct destinations, for the refusal comes first (R514), and does nothing else. -/
theorem exec_next_faulted {i : Instr} {s : Mach n} {t : State} {f : Fault} (hs : s.status = .running)
    (h : exec i s.toState = .next t) (hf : t.mach.status = .faulted f) :
    i.hasDistinctDestinations = true ∧ t = (s.takeFault (s.pc - 4) f).toState := by
  rcases exec_cases i s with ⟨-, h'⟩ | ⟨hd, ⟨-, h'⟩ | ⟨v, -, h'⟩ | ⟨u, h', hu | ⟨g, rfl⟩⟩⟩ <;>
    cases h'.symm.trans h
  · cases hf
  · cases (hu.trans hs).symm.trans hf
  · cases hf
    exact ⟨hd, rfl⟩

/-- A step of a running machine that faults changes the status alone; the fault is that of the fetch, or the
instruction at pc raised it. -/
theorem step_next_faulted {s : Mach n} {t : State} {f : Fault} (hs : s.status = .running)
    (h : step s.toState = .next t) (hf : t.mach.status = .faulted f) :
    t = (s.setStatus (.faulted f)).toState ∧
      (s.fetchDecode = .error f ∨ ∃ i, s.AtPc i ∧ exec i s.advance.toState = .next t) := by
  rcases step_next.mp h with ⟨hn, -⟩ | ⟨-, i, hi, he⟩ | ⟨-, g, hg, rfl⟩
  · exact absurd hs hn
  · obtain ⟨hd, ht⟩ := exec_next_faulted (s := s.advance) hs he hf
    obtain ⟨hr, hw⟩ := fetchDecode_ok.mp hi
    exact ⟨ht.trans (congrArg _ (takeFault_advance s f)), .inr ⟨i, ⟨hr, hw, hd⟩, he⟩⟩
  · cases hf
    exact ⟨rfl, .inl hg⟩

/-- Settles O10: the faulted state is that of `step_next_faulted`, and a state that is not running stays. -/
theorem faultsArePrecise : Obligations.FaultsArePrecise := by
  intro s t f hs h hf
  obtain ⟨ht, -⟩ := step_next_faulted hs h hf
  have hstopped : t.mach.status ≠ .running := by simp [hf]
  exact ⟨ht, step_next.mpr (.inl ⟨hstopped, rfl⟩)⟩

/-! ### The faults of the fetch (R501, R502, R505) -/

/-- What is rejected meets no row of the table, and is rejected by its first byte (30_encoding.md R108). -/
theorem decode_error {w : InstrWord} {e : DecodeError} (h : decode w = .error e) :
    (∀ i, matchesRow w (tableRow i) = false) ∧ e = rejection w := by
  have hrow : ∀ i, matchesRow w (tableRow i) = false := by
    intro j
    by_contra hj
    obtain ⟨i, hi, -⟩ := (decodeFollowsTable w).2 j (Bool.not_eq_false _ ▸ hj)
    cases h.symm.trans hi
  exact ⟨hrow, Except.error.inj (h.symm.trans (decode_of_matchesNoRow hrow))⟩

/-- Each defined callID has a row of its own (48_halcode.md R430). -/
theorem exists_tableRow_of_callId {k : Nat}
    (hk : k ∈ [0x100000, 0x100001, 0x100002, 0x100003, 0x100004, 0x100100, 0x100200]) :
    ∃ i, tableRow i = (0x42 * 2 ^ 24 + k, 0xFFFFFFFF) := by
  simp only [List.mem_cons, List.not_mem_nil, or_false] at hk
  rcases hk with rfl | rfl | rfl | rfl | rfl | rfl | rfl
  exacts [⟨.fopenRead, rfl⟩, ⟨.fopenWrite, rfl⟩, ⟨.fclose, rfl⟩, ⟨.rewind, rfl⟩, ⟨.fseek, rfl⟩, ⟨.fgetc, rfl⟩,
    ⟨.fputc, rfl⟩]

/-- The fault of a rejected word is true of the state it was fetched in. -/
theorem trueOf_decodeFault {s : Mach n} {e : DecodeError} (hr : s.Fetches) (h : decode s.fetchWord = .error e) :
    (decodeFault s.fetchWord e).TrueOf s := by
  obtain ⟨hrow, rfl⟩ := decode_error h
  obtain ⟨hhalcode, hillegal⟩ := decodeFault_rejection s.fetchWord
  by_cases hbyte : s.fetchWord.toNat / 2 ^ 24 = 0x42
  · have hword : s.fetchWord.toNat = 0x42 * 2 ^ 24 + (BitVec.ofNat 24 s.fetchWord.toNat).toNat := by
      rw [BitVec.toNat_ofNat]
      omega
    rw [hhalcode hbyte]
    refine ⟨hr, hword, fun hmem => ?defined⟩
    case defined =>
      obtain ⟨i, hi⟩ := exists_tableRow_of_callId hmem
      have hmatch : matchesRow s.fetchWord (tableRow i) = true := by
        rw [hi, ← hword, matchesRow_full_iff, BitVec.ofNat_toNat, BitVec.setWidth_eq]
      exact Bool.false_ne_true ((hrow i).symm.trans hmatch)
  · rw [hillegal hbyte]
    exact ⟨hr, rfl, hrow, hbyte⟩

theorem trueOf_of_fetchDecode_error {s : Mach n} {f : Fault} (h : s.fetchDecode = .error f) : f.TrueOf s := by
  rcases fetchDecode_error.mp h with ⟨hout, rfl⟩ | ⟨hin, e, he, rfl⟩
  · exact ⟨hout, .inl ⟨rfl, rfl⟩⟩
  · exact trueOf_decodeFault hin he

/-! ### The faults of the shared operations, at the instruction that uses them (R502 to R508) -/

/-- Every fault that the operation ends in, and that the machine did not have before, is true of the machine. -/
def FaultsTruly (s : Mach n) (r : MachResult n) : Prop :=
  ∀ t f, r = .next t → t.status = .faulted f → s.status = .faulted f ∨ f.TrueOf s

section faults

variable {s u : Mach n} {i : Instr} {r : MachResult n} {c d q : Reg} {f : Fault}

/-- The shape of every memory access in Laws.Ops, as in `completes_of_access`. -/
theorem faultsTruly_of_access {p : Word n} {w : Width} (hi : s.AtPc i) (ha : s.advance.accessOf i = some (p, w))
    (h : ∀ t, r = .next t → (p.toNat + w.bytes n ≤ s.advance.mem.size ∧ t = u) ∨
      (s.advance.mem.size < p.toNat + w.bytes n ∧
        t = s.advance.takeFault (s.advance.pc - 4) (.memoryOutOfRange p.toNat (w.bytes n))))
    (hu : u.status = s.status) : FaultsTruly s r := by
  intro t f ht hf
  rcases h t ht with ⟨-, rfl⟩ | ⟨hout, rfl⟩
  · exact .inl (hu.symm.trans hf)
  · cases hf
    exact .inr ⟨hout, .inr ⟨i, p, w, hi, ha, rfl, rfl⟩⟩

theorem trueOf_of_divideSigned (hi : s.AtPc i) (hdiv : i.divides = some (c, d)) (hsigned : i.dividesSigned = true)
    (hf : divideSigned (s.reg c) (s.reg d) = .error f) : f.TrueOf s := by
  by_cases hzero : sInt (s.reg d) = 0
  · cases (divideSigned_zero hzero).symm.trans hf
    have huInt : uInt (s.reg d) = 0 := by
      rw [← wordOf_sInt (s.reg d), hzero, uInt_wordOf, Int.zero_emod]
    exact ⟨i, c, d, hi, hdiv, huInt⟩
  by_cases hcorner : sInt (s.reg c) = -2 ^ (n.bits - 1) ∧ sInt (s.reg d) = -1
  · obtain ⟨hc, hd⟩ := hcorner
    rw [divideSigned_corner hc hd] at hf
    split at hf
    next hsetting =>
      cases hf
      exact ⟨hsetting, i, c, d, hi, hsigned, hdiv, hc, hd⟩
    next => cases hf
  · cases (divideSigned_ok hzero hcorner).symm.trans hf

theorem trueOf_of_divideUnsigned (hi : s.AtPc i) (hdiv : i.divides = some (c, d))
    (hf : divideUnsigned (s.reg c) (s.reg d) = .error f) : f.TrueOf s := by
  by_cases hzero : uInt (s.reg d) = 0
  · cases (divideUnsigned_zero hzero).symm.trans hf
    exact ⟨i, c, d, hi, hdiv, hzero⟩
  · cases (divideUnsigned_ok hzero).symm.trans hf

theorem faultsTruly_divideInto {a b : Reg} {x : Except Fault (Word n × Word n)}
    (hx : ∀ f, x = .error f → f.TrueOf s) : FaultsTruly s (divideInto s.advance a b x) := by
  intro t f ht hf
  rcases divideInto_next.mp ht with ⟨-, ⟨qr, -, rfl⟩ | ⟨g, hg, rfl⟩⟩
  · exact .inl hf
  · cases hf
    exact .inr (hx _ hg)

theorem faultsTruly_divideHalf {a : Reg} {x : Except Fault (Word n × Word n)} {half : Word n × Word n → Word n}
    (hx : ∀ f, x = .error f → f.TrueOf s) : FaultsTruly s (divideHalf s.advance a x half) := by
  intro t f ht hf
  rcases divideHalf_next.mp ht with ⟨qr, -, rfl⟩ | ⟨g, hg, rfl⟩
  · exact .inl hf
  · cases hf
    exact .inr (hx _ hg)

theorem trueOf_invalidDevice (hi : s.AtPc i) (hq : i.deviceRegister = some q) (hnone : deviceOf (s.reg q) = none) :
    (Fault.invalidDevice (s.reg q).toNat).TrueOf s :=
  ⟨i, q, hi, hq, rfl, deviceOf_eq_none.mp hnone⟩

theorem faultsTruly_onTape {g : Tape → Tape} (hi : s.AtPc i) (hq : i.deviceRegister = some q) :
    FaultsTruly s (onTape s.advance (s.advance.reg q) g) := by
  intro t f ht hf
  rcases onTape_next.mp ht with ⟨hnone, rfl⟩ | ⟨-, rfl⟩ | ⟨d, -, rfl⟩
  · cases hf
    exact .inr (trueOf_invalidDevice hi hq hnone)
  · exact .inl hf
  · exact .inl (by simpa using hf)

theorem faultsTruly_seekTape (hi : s.AtPc .fseek) :
    FaultsTruly s (seekTape s.advance (s.advance.reg 0) (s.advance.reg 1).toInt) := by
  intro t f ht hf
  rcases seekTape_next.mp ht with ⟨hnone, rfl⟩ | ⟨-, rfl⟩ | ⟨d, hd, ⟨hneg, rfl⟩ | ⟨-, rfl⟩⟩
  · cases hf
    exact .inr (trueOf_invalidDevice hi rfl hnone)
  · exact .inl hf
  · cases hf
    rw [← sInt_eq_toInt] at hneg ⊢
    exact .inr ⟨d, eq_id_of_deviceOf hd, rfl, hi, rfl, hneg⟩
  · exact .inl (by simpa using hf)

theorem faultsTruly_getByte (hi : s.AtPc .fgetc) : FaultsTruly s (getByte s.advance (s.advance.reg 1) 0) := by
  intro t f ht hf
  rcases getByte_next.mp ht with ⟨hnone, rfl⟩ | ⟨-, -, rfl⟩ | ⟨b, rest, -, -, rfl⟩ |
    ⟨d, hd, ⟨hmode, rfl⟩ | ⟨-, -, rfl⟩ | ⟨b, -, -, rfl⟩⟩
  · cases hf
    exact .inr (trueOf_invalidDevice hi rfl hnone)
  · exact .inl hf
  · exact .inl hf
  · cases hf
    exact .inr ⟨d, eq_id_of_deviceOf hd, rfl, .inl ⟨hi, hmode⟩⟩
  · exact .inl hf
  · exact .inl (by simpa using hf)

theorem faultsTruly_putByte {b : Byte} (hi : s.AtPc .fputc) :
    FaultsTruly s (putByte s.advance (s.advance.reg 1) b) := by
  intro t f ht hf
  rcases putByte_next.mp ht with ⟨hnone, rfl⟩ | ⟨-, rfl⟩ | ⟨d, hd, ⟨hmode, rfl⟩ | ⟨-, rfl⟩⟩
  · cases hf
    exact .inr (trueOf_invalidDevice hi rfl hnone)
  · exact .inl hf
  · cases hf
    exact .inr ⟨d, eq_id_of_deviceOf hd, rfl, .inr ⟨hi, hmode⟩⟩
  · exact .inl (by simpa using hf)

end faults

/-! ### The faults of a step -/

/-- Every instruction that can fault is one operation, whose faults are true of a machine with the instruction at pc. -/
theorem exec_faultsTruly {i : Instr} {s : Mach n} (hi : s.AtPc i) (hc : i.canFault = true) :
    ∃ r : MachResult n, exec i s.advance.toState = r.lift ∧ FaultsTruly s r := by
  cases i with
  | loadx | loadx8 | loadxu8 | loadx16 | loadxu16 | loadx32 | loadxu32
  | load | load8 | loadu8 | load16 | loadu16 | load32 | loadu32
  | loadr | loadr8 | loadru8 | loadr16 | loadru16 | loadr32 | loadru32 =>
    exact ⟨_, rfl, faultsTruly_of_access hi rfl (fun _ => loadReg_next.mp) rfl⟩
  | storex | storex8 | storex16 | storex32 | store | store8 | store16 | store32
  | storer | storer8 | storer16 | storer32 =>
    exact ⟨_, rfl, faultsTruly_of_access hi rfl (fun _ => storeValue_next.mp) rfl⟩
  | pushr | push8 | push16 | push32 | pushpc =>
    exact ⟨_, rfl, faultsTruly_of_access hi rfl (fun _ => pushValue_next.mp) rfl⟩
  | popr | pop8 | popu8 | pop16 | popu16 | pop32 | popu32 =>
    exact ⟨_, rfl, faultsTruly_of_access hi rfl (fun _ h => (popReg_next.mp h).2) rfl⟩
  | ret | poppc => exact ⟨_, rfl, faultsTruly_of_access hi rfl (fun _ => popPc_next.mp) rfl⟩
  | call | calli => exact ⟨_, rfl, faultsTruly_of_access hi rfl (fun _ => callTo_next.mp) rfl⟩
  | branch => exact ⟨_, rfl, faultsTruly_of_access hi rfl (fun _ => branchTo_next.mp) rfl⟩
  | divide => exact ⟨_, rfl, faultsTruly_divideInto fun _ => trueOf_of_divideSigned hi rfl rfl⟩
  | divideu => exact ⟨_, rfl, faultsTruly_divideInto fun _ => trueOf_of_divideUnsigned hi rfl⟩
  | div | mod => exact ⟨_, rfl, faultsTruly_divideHalf fun _ => trueOf_of_divideSigned hi rfl rfl⟩
  | divu | modu => exact ⟨_, rfl, faultsTruly_divideHalf fun _ => trueOf_of_divideUnsigned hi rfl⟩
  | fopenRead | fopenWrite | fclose | rewind => exact ⟨_, rfl, faultsTruly_onTape hi rfl⟩
  | fseek => exact ⟨_, rfl, faultsTruly_seekTape hi⟩
  | fgetc => exact ⟨_, rfl, faultsTruly_getByte hi⟩
  | fputc => exact ⟨_, rfl, faultsTruly_putByte hi⟩
  | _ => cases hc

/-- A fault that the instruction at pc raises is true of the machine before the step. -/
theorem trueOf_of_exec_next {i : Instr} {s : Mach n} {t : State} {f : Fault} (hs : s.status = .running)
    (hi : s.AtPc i) (h : exec i s.advance.toState = .next t) (hf : t.mach.status = .faulted f) : f.TrueOf s := by
  have hnot : s.status ≠ .faulted f := by simp [hs]
  cases hc : i.canFault with
  | false =>
    obtain ⟨-, hold⟩ := onlyStoresWriteMemory i _ _ h
    exact absurd (hold hc f hf) hnot
  | true =>
    obtain ⟨r, hr, htrue⟩ := exec_faultsTruly hi hc
    obtain ⟨u, hu, rfl⟩ := lift_next.mp (hr.symm.trans h)
    exact (htrue u f hu hf).resolve_left hnot

/-- The status is no part of what makes a fault true. -/
theorem trueOf_setStatus {f : Fault} {s : Mach n} {v : RunStatus} (h : f.TrueOf s) : f.TrueOf (s.setStatus v) := by
  cases f <;> exact h

/-- Settles O11: a step that faults leaves the machine before it, of which the fetch's fault or the instruction's is
true; a state that is not running stays. -/
theorem faultRecordsTrueCause : Obligations.FaultRecordsTrueCause := by
  refine ⟨nofun, fun s t hinv h f hf => ?_⟩
  by_cases hs : s.mach.status = .running
  · obtain ⟨rfl, hfetch | ⟨i, hi, he⟩⟩ := step_next_faulted hs h hf
    · exact trueOf_setStatus (trueOf_of_fetchDecode_error hfetch)
    · exact trueOf_setStatus (trueOf_of_exec_next hs hi he hf)
  · have hstays : step s = .next s := step_next.mpr (.inl ⟨hs, rfl⟩)
    cases hstays.symm.trans h
    exact hinv f hf

end Sys2Proof.Machine
end

section
/-!
Reset and boot (70_reset_and_hazards.md R541 to R545, 10_state.md R44 to R46): what memory holds after an image is
placed, and the machine after reset as the boot with the default inputs.
-/

namespace Sys2Proof.Machine

variable {n : Xlen}

/-! ### Placing bytes at consecutive addresses (R543) -/

/-- A placed byte where there is one, the old byte elsewhere. -/
theorem Memory.get_placeBytes (m : Memory) (a : Nat) (bytes : List Byte) (j : Nat) :
    (m.placeBytes a bytes).get j = if j < a then m.get j else (bytes[j - a]?).getD (m.get j) := by
  induction bytes generalizing m a with
  | nil => simp [Memory.placeBytes]
  | cons b rest ih =>
    rw [Memory.placeBytes, ih, Memory.get_put]
    rcases lt_trichotomy j a with h | rfl | h
    · rw [if_pos (by omega), if_pos h, if_neg h.ne]
    · simp
    · rw [if_neg (by omega), if_neg h.not_gt, if_neg h.ne', show j - a = j - (a + 1) + 1 by omega,
        List.getElem?_cons_succ]

@[simp] theorem Memory.size_placeBytes (m : Memory) (a : Nat) (bytes : List Byte) :
    (m.placeBytes a bytes).size = m.size := by
  induction bytes generalizing m a with
  | nil => rfl
  | cons b rest ih => rw [Memory.placeBytes, ih, Memory.size_put]

/-- Bytes placed inside memory keep the canonical form. -/
theorem Memory.wf_placeBytes {m : Memory} {a : Nat} {bytes : List Byte} (hfit : a + bytes.length ≤ m.size)
    (h : m.wf = true) : (m.placeBytes a bytes).wf = true := by
  induction bytes generalizing m a with
  | nil => exact h
  | cons b rest ih =>
    rw [List.length_cons] at hfit
    exact ih (by rw [Memory.size_put]; omega) (m.wf_put a b (by omega) h)

/-! ### Boot -/

/-- Memory of which no byte is listed is canonical. -/
theorem Memory.wf_blank {size : Nat} (h : 8 ≤ size) : Memory.wf { size := size, cells := [] } = true :=
  (Memory.wf_iff _).mpr ⟨h, rfl, rfl⟩

/-- Byte j after boot is byte j of the image, and 0x00 beyond it. -/
theorem Mach.get_mem_boot (inputs : RunInputs n) (j : Nat) :
    (Mach.boot inputs).mem.get j = (inputs.image[j]?).getD 0 :=
  Memory.get_placeBytes _ 0 inputs.image j

theorem Mach.size_mem_boot (inputs : RunInputs n) : (Mach.boot inputs).mem.size = inputs.memSize :=
  Memory.size_placeBytes ..

/-- Booting with an image that fits meets the invariant of memory (20_memory.md R60, 00_scope.md R6). -/
theorem inv_boot {inputs : RunInputs n} (hlow : 8 ≤ inputs.memSize) (hhigh : inputs.memSize ≤ 2 ^ n.bits)
    (hfit : inputs.image.length ≤ inputs.memSize) : (Mach.boot inputs).toState.Inv :=
  ⟨Memory.wf_placeBytes (by rwa [Nat.zero_add]) (Memory.wf_blank hlow), (Mach.size_mem_boot inputs).trans_le hhigh⟩

theorem boot_default : (Mach.boot RunInputs.default).toState = State.reset := (rfl)

/-- Settles O15: the image is placed over a blank memory; every other input is a field of the machine. -/
theorem bootPlacesImage : Obligations.BootPlacesImage := by
  refine ⟨fun n inputs hlow hhigh hfit => ?_, boot_default⟩
  exact ⟨Mach.get_mem_boot inputs, Mach.size_mem_boot inputs, inv_boot hlow hhigh hfit, fun _ => rfl, rfl, rfl, rfl,
    rfl, rfl⟩

/-! ### Reset: the boot with the default inputs -/

/-- Settles O13: the default inputs are an empty image in a memory of an allowed size. -/
theorem invariantAtReset : Obligations.InvariantAtReset := by
  rw [Obligations.InvariantAtReset, ← boot_default]
  exact inv_boot (by decide) (by decide) (Nat.zero_le _)

theorem reg_reset (r : Reg) : State.reset.mach.reg r = 0 := by
  simp [State.reset, Mach.reg, Vector.get_eq_getElem, Config.resetReg]

/-- Settles O14: memory is that of a boot with an empty image; the rest is read off the state. -/
theorem resetValues : Obligations.ResetValues := by
  refine ⟨rfl, reg_reset, rfl, Mach.get_mem_boot RunInputs.default, fun d => ?tape, rfl, rfl, rfl⟩
  case tape => cases d <;> exact ⟨rfl, rfl, rfl⟩

end Sys2Proof.Machine
end

section
/-!
The compare-skips with an immediate and the pc-relative compare-jumps (49_high_immediate_groups.md R461 to R470, R477 to
R486): the shapes of the register forms, on the extended immediate.
-/

namespace Sys2Proof.Machine

variable {n : Xlen}

theorem relSigned_sextImm_iff (r : Relation) (x : Word n) (imm : Imm16) :
    relSigned r x (sextImm imm) = true ↔ r.Holds (sInt x) (sImm imm) := by
  rw [relSigned_iff, sInt_sextImm]

theorem relUnsigned_zextImm_iff (r : Relation) (x : Word n) (imm : Imm16) :
    relUnsigned r x (zextImm imm) = true ↔ r.Holds (uInt x) (uImm imm) := by
  rw [relUnsigned_iff, uInt_zextImm]

/-- Settles O41: the mnemonic's suffix names the relation, its U the reading of the register and the extension. -/
theorem compareSkipImmediate : Obligations.CompareSkipImmediate := fun _ _ _ _ =>
  ⟨goesIf_of_skipIf (relSigned_sextImm_iff .g _ _) rfl, goesIf_of_skipIf (relSigned_sextImm_iff .ge _ _) rfl,
    goesIf_of_skipIf (relSigned_sextImm_iff .e _ _) rfl, goesIf_of_skipIf (relSigned_sextImm_iff .ne _ _) rfl,
    goesIf_of_skipIf (relSigned_sextImm_iff .le _ _) rfl, goesIf_of_skipIf (relSigned_sextImm_iff .l _ _) rfl,
    goesIf_of_skipIf (relUnsigned_zextImm_iff .g _ _) rfl, goesIf_of_skipIf (relUnsigned_zextImm_iff .ge _ _) rfl,
    goesIf_of_skipIf (relUnsigned_zextImm_iff .le _ _) rfl, goesIf_of_skipIf (relUnsigned_zextImm_iff .l _ _) rfl⟩

/-- Settles O42: as O39, with the pc-relative target; the displacement is signed under both readings. -/
theorem compareJumpRelative : Obligations.CompareJumpRelative := fun _ _ _ _ _ =>
  ⟨goesIf_of_relative (relSigned_iff .g _ _) rfl, goesIf_of_relative (relSigned_iff .ge _ _) rfl,
    goesIf_of_relative (relSigned_iff .e _ _) rfl, goesIf_of_relative (relSigned_iff .ne _ _) rfl,
    goesIf_of_relative (relSigned_iff .le _ _) rfl, goesIf_of_relative (relSigned_iff .l _ _) rfl,
    goesIf_of_relative (relUnsigned_iff .g _ _) rfl, goesIf_of_relative (relUnsigned_iff .ge _ _) rfl,
    goesIf_of_relative (relUnsigned_iff .le _ _) rfl, goesIf_of_relative (relUnsigned_iff .l _ _) rfl⟩

end Sys2Proof.Machine
end

section
/-!
Who touches what (48_halcode.md R432, R435): an instruction that is no HALCODE answers the same whatever the devices
hold, which is said once for each shared operation; a HALCODE changes no memory and no register but x[0].
-/

namespace Sys2Proof.Machine

variable {n : Xlen}

/-! ### Operations that do not see the devices -/

/-- An answer with the device contents of its next machine replaced. -/
def MachResult.withDevices (r : MachResult n) (tape1 tape2 : Tape) (tty : Tty) : MachResult n :=
  match r with
  | .next s => .next (s.withDevices tape1 tape2 tty)
  | .fault f => .fault f
  | .refused x => .refused x

section withDevices

variable {s : Mach n} {tape1 tape2 : Tape} {tty : Tty}

theorem lift_withDevices (r : MachResult n) :
    (r.withDevices tape1 tape2 tty).lift = mapNext (fun t => t.withDevices tape1 tape2 tty) r.lift := by
  cases r <;> rfl

/-- An operation guarded by a condition, each of whose answers does not see the devices. -/
theorem ite_withDevices {c : Prop} [Decidable c] {x y x' y' : MachResult n}
    (hx : x' = x.withDevices tape1 tape2 tty) (hy : y' = y.withDevices tape1 tape2 tty) :
    (if c then x' else y') = MachResult.withDevices (if c then x else y) tape1 tape2 tty := by
  split
  · exact hx
  · exact hy

theorem writePair_withDevices {a b : Reg} {va vb : Word n} :
    writePair (s.withDevices tape1 tape2 tty) a b va vb =
      MachResult.withDevices (writePair s a b va vb) tape1 tape2 tty :=
  ite_withDevices rfl rfl

theorem skipIf_withDevices {c : Bool} :
    skipIf (s.withDevices tape1 tape2 tty) c = MachResult.withDevices (skipIf s c) tape1 tape2 tty := by
  cases c <;> rfl

theorem loadReg_withDevices {a : Reg} {p : Word n} {w : Width} {e : Extension} :
    loadReg (s.withDevices tape1 tape2 tty) a p w e =
      MachResult.withDevices (loadReg s a p w e) tape1 tape2 tty :=
  ite_withDevices rfl rfl

theorem storeValue_withDevices {p : Word n} {w : Width} {v : Word n} :
    storeValue (s.withDevices tape1 tape2 tty) p w v =
      MachResult.withDevices (storeValue s p w v) tape1 tape2 tty :=
  ite_withDevices rfl rfl

theorem pushValue_withDevices {p : Reg} {w : Width} {v : Word n} :
    pushValue (s.withDevices tape1 tape2 tty) p w v =
      MachResult.withDevices (pushValue s p w v) tape1 tape2 tty :=
  ite_withDevices rfl rfl

theorem popReg_withDevices {a p : Reg} {w : Width} {e : Extension} :
    popReg (s.withDevices tape1 tape2 tty) a p w e =
      MachResult.withDevices (popReg s a p w e) tape1 tape2 tty :=
  ite_withDevices rfl (ite_withDevices rfl rfl)

theorem popPc_withDevices {p : Reg} :
    popPc (s.withDevices tape1 tape2 tty) p = MachResult.withDevices (popPc s p) tape1 tape2 tty :=
  ite_withDevices rfl rfl

theorem callTo_withDevices {p : Reg} {target : Word n} :
    callTo (s.withDevices tape1 tape2 tty) p target =
      MachResult.withDevices (callTo s p target) tape1 tape2 tty :=
  ite_withDevices rfl rfl

theorem branchTo_withDevices {p : Reg} {target : Word n} :
    branchTo (s.withDevices tape1 tape2 tty) p target =
      MachResult.withDevices (branchTo s p target) tape1 tape2 tty :=
  ite_withDevices rfl rfl

theorem divideInto_withDevices {a b : Reg} {r : Except Fault (Word n × Word n)} :
    divideInto (s.withDevices tape1 tape2 tty) a b r =
      MachResult.withDevices (divideInto s a b r) tape1 tape2 tty :=
  ite_withDevices rfl (by cases r <;> rfl)

theorem divideHalf_withDevices {a : Reg} {r : Except Fault (Word n × Word n)} {half : Word n × Word n → Word n} :
    divideHalf (s.withDevices tape1 tape2 tty) a r half =
      MachResult.withDevices (divideHalf s a r half) tape1 tape2 tty := by
  cases r <;> rfl

/-- An instruction whose operation does not see the devices, on two machines that differ only in them. -/
theorem exec_withDevices_of {i : Instr} {r r' : MachResult n}
    (h' : exec i (s.withDevices tape1 tape2 tty).toState = r'.lift) (h : exec i s.toState = r.lift)
    (hr : r' = r.withDevices tape1 tape2 tty) :
    exec i (s.withDevices tape1 tape2 tty).toState =
      mapNext (fun t => t.withDevices tape1 tape2 tty) (exec i s.toState) := by
  rw [h', hr, lift_withDevices, h]

/-- Every instruction but the HALCODEs is an operation that does not see the devices. -/
theorem exec_withDevices {i : Instr} (hi : i.isHalcode = false) :
    exec i (s.withDevices tape1 tape2 tty).toState =
      mapNext (fun t => t.withDevices tape1 tape2 tty) (exec i s.toState) := by
  cases i with
  | fopenRead | fopenWrite | fclose | rewind | fseek | fgetc | fputc => cases hi
  | addCo | addCio | adduCo | adduCio | subBo | subBio | subuBo | subuBio | multiply | multiplyu | sort | sortu
  | move => exact exec_withDevices_of rfl rfl writePair_withDevices
  | divide | divideu => exact exec_withDevices_of rfl rfl divideInto_withDevices
  | popr | pop8 | popu8 | pop16 | popu16 | pop32 | popu32 =>
    exact exec_withDevices_of rfl rfl popReg_withDevices
  | div | mod | divu | modu =>
    exact exec_withDevices_of rfl rfl divideHalf_withDevices
  | loadx | loadx8 | loadxu8 | loadx16 | loadxu16 | loadx32 | loadxu32
  | load | load8 | loadu8 | load16 | loadu16 | load32 | loadu32
  | loadr | loadr8 | loadru8 | loadr16 | loadru16 | loadr32 | loadru32 =>
    exact exec_withDevices_of rfl rfl loadReg_withDevices
  | storex | storex8 | storex16 | storex32 | store | store8 | store16 | store32
  | storer | storer8 | storer16 | storer32 =>
    exact exec_withDevices_of rfl rfl storeValue_withDevices
  | pushr | push8 | push16 | push32 | pushpc =>
    exact exec_withDevices_of rfl rfl pushValue_withDevices
  | ret | poppc => exact exec_withDevices_of rfl rfl popPc_withDevices
  | call | calli => exact exec_withDevices_of rfl rfl callTo_withDevices
  | branch => exact exec_withDevices_of rfl rfl branchTo_withDevices
  | cmpskipG | cmpskipGe | cmpskipE | cmpskipNe | cmpskipLe | cmpskipL
  | cmpskipuG | cmpskipuGe | cmpskipuLe | cmpskipuL
  | cmpskipiG | cmpskipiGe | cmpskipiE | cmpskipiNe | cmpskipiLe | cmpskipiL
  | cmpskipuiG | cmpskipuiGe | cmpskipuiLe | cmpskipuiL =>
    exact exec_withDevices_of rfl rfl skipIf_withDevices
  -- every other instruction writes registers, pc or status from registers and pc, or is refused
  | _ => rfl

end withDevices

/-! ### The registers a HALCODE writes (R439 to R445) -/

theorem keepsRegs_onTape {s t : Mach n} {v : Word n} {f : Tape → Tape} {l : List Reg}
    (h : onTape s v f = .next t) : KeepsRegs s t l := by
  intro r _
  rcases onTape_next.mp h with ⟨-, rfl⟩ | ⟨-, rfl⟩ | ⟨d, -, rfl⟩
  · rfl
  · rfl
  · exact Mach.reg_setTape ..

theorem keepsRegs_seekTape {s t : Mach n} {v : Word n} {k : Int} {l : List Reg} (h : seekTape s v k = .next t) :
    KeepsRegs s t l := by
  intro r _
  rcases seekTape_next.mp h with ⟨-, rfl⟩ | ⟨-, rfl⟩ | ⟨d, -, ⟨-, rfl⟩ | ⟨-, rfl⟩⟩
  · rfl
  · rfl
  · rfl
  · exact Mach.reg_setTape ..

theorem keepsRegs_putByte {s t : Mach n} {v : Word n} {b : Byte} {l : List Reg} (h : putByte s v b = .next t) :
    KeepsRegs s t l := by
  intro r _
  rcases putByte_next.mp h with ⟨-, rfl⟩ | ⟨-, rfl⟩ | ⟨d, -, ⟨-, rfl⟩ | ⟨-, rfl⟩⟩
  · rfl
  · rfl
  · rfl
  · exact Mach.reg_setTape ..

theorem keepsRegs_getByte {s t : Mach n} {v : Word n} {a : Reg} (h : getByte s v a = .next t) :
    KeepsRegs s t [a] := by
  intro r hr
  have hra : r ≠ a := by simpa using hr
  rcases getByte_next.mp h with ⟨-, rfl⟩ | ⟨-, -, rfl⟩ | ⟨b, rest, -, -, rfl⟩ |
    ⟨d, -, ⟨-, rfl⟩ | ⟨-, -, rfl⟩ | ⟨b, -, -, rfl⟩⟩
  · rfl
  · exact Mach.reg_setReg_ne _ _ hra
  · exact Mach.reg_setReg_ne _ _ hra
  · rfl
  · exact Mach.reg_setReg_ne _ _ hra
  · rw [Mach.reg_setReg_ne _ _ hra, Mach.reg_setTape]

/-- FGETC alone of the HALCODEs writes a register. -/
theorem keepsRegs_of_isHalcode {i : Instr} {s t : Mach n} (hi : i.isHalcode = true)
    (h : exec i s.toState = .next t.toState) : KeepsRegs s t [0] := by
  cases i with
  | fopenRead | fopenWrite | fclose | rewind => exact keepsRegs_onTape (lift_next_toState.mp h)
  | fseek => exact keepsRegs_seekTape (lift_next_toState.mp h)
  | fgetc => exact keepsRegs_getByte (lift_next_toState.mp h)
  | fputc => exact keepsRegs_putByte (lift_next_toState.mp h)
  | _ => cases hi

theorem writesMemory_of_isHalcode {i : Instr} (hi : i.isHalcode = true) : i.writesMemory = false := by
  cases i with
  | fopenRead | fopenWrite | fclose | rewind | fseek | fgetc | fputc => rfl
  | _ => cases hi

/-- Settles O56: the first clause is `exec_withDevices`; memory is that of an instruction that writes none (O57). -/
theorem onlyHalcodesTouchDevices : Obligations.OnlyHalcodesTouchDevices := by
  refine ⟨fun i s tape1 tape2 tty hi => exec_withDevices (s := s.mach) hi, fun i n s t hi h => ?_⟩
  obtain ⟨hmem, -⟩ := onlyStoresWriteMemory i _ _ h
  exact ⟨hmem (writesMemory_of_isHalcode hi), keepsRegs_of_isHalcode hi h⟩

end Sys2Proof.Machine
end

section
/-!
The HALCODEs (48_halcode.md R431 to R445): where each call puts the head, what it reads or writes there, and one byte
copied over a tape. For each call the machine it answers on a tape is given once; the obligations read it off.
-/

namespace Sys2Proof.Machine

variable {n : Xlen}

/-! ### The cells of a tape (R433, R445) -/

theorem firstNonZero_cons_zero (rest : List Byte) : firstNonZero (0 :: rest) = firstNonZero rest + 1 := if_pos rfl

theorem firstNonZero_cons_ne {c : Byte} (hc : c ≠ 0) (rest : List Byte) : firstNonZero (c :: rest) = 0 := if_neg hc

theorem firstZero_cons_zero (rest : List Byte) : firstZero (0 :: rest) = 0 := if_pos rfl

theorem firstZero_cons_ne {c : Byte} (hc : c ≠ 0) (rest : List Byte) : firstZero (c :: rest) = firstZero rest + 1 :=
  if_neg hc

theorem isFirstNonZero_firstNonZero (cells : List Byte) : IsFirstNonZero cells (firstNonZero cells) := by
  induction cells with
  | nil => exact ⟨nofun, .inl rfl⟩
  | cons c rest ih =>
    obtain ⟨hbefore, hat⟩ := ih
    by_cases hc : c = 0
    · rw [hc, firstNonZero_cons_zero]
      refine ⟨fun j hj => ?_, by simpa using hat⟩
      cases j with
      | zero => rfl
      | succ j => exact hbefore j (Nat.lt_of_succ_lt_succ hj)
    · rw [firstNonZero_cons_ne hc]
      exact ⟨nofun, .inr ⟨c, hc, rfl⟩⟩

theorem isFirstZero_firstZero (cells : List Byte) : IsFirstZero cells (firstZero cells) := by
  induction cells with
  | nil => exact ⟨nofun, .inl rfl⟩
  | cons c rest ih =>
    obtain ⟨hbefore, hat⟩ := ih
    by_cases hc : c = 0
    · rw [hc, firstZero_cons_zero]
      exact ⟨nofun, .inr rfl⟩
    · rw [firstZero_cons_ne hc]
      refine ⟨fun j hj => ?_, by simpa using hat⟩
      cases j with
      | zero => exact ⟨c, hc, rfl⟩
      | succ j => exact hbefore j (Nat.lt_of_succ_lt_succ hj)

/-- The written byte at the head; up to it the old cells, padded; past it the old cells. -/
theorem getElem?_putCell (cells : List Byte) (pos : Nat) (b : Byte) (j : Nat) :
    (putCell cells pos b)[j]? =
      if j = pos then some b else if j < pos then some ((cells[j]?).getD 0) else cells[j]? := by
  induction pos generalizing cells j with
  | zero => cases cells <;> cases j <;> simp [putCell]
  | succ pos ih => cases cells <;> cases j <;> simp [putCell, ih]

theorem length_putCell (cells : List Byte) (pos : Nat) (b : Byte) :
    (putCell cells pos b).length = max cells.length (pos + 1) := by
  induction pos generalizing cells with
  | zero => cases cells <;> simp [putCell]
  | succ pos ih => cases cells <;> simp [putCell, ih]

/-- Below the new length every cell is the written byte, an old cell or padding. -/
theorem getElem?_putCell_of_lt {cells : List Byte} {pos j : Nat} {b : Byte}
    (hj : j < (putCell cells pos b).length) :
    (putCell cells pos b)[j]? = some (if j = pos then b else (cells[j]?).getD 0) := by
  rw [length_putCell] at hj
  rw [getElem?_putCell]
  rcases lt_trichotomy j pos with h | rfl | h
  · rw [if_neg h.ne, if_pos h, if_neg h.ne]
  · simp
  · have hold : j < cells.length := by omega
    rw [if_neg h.ne', if_neg h.not_gt, if_neg h.ne', List.getElem?_eq_getElem hold, Option.getD_some]

/-! ### Frames -/

/-- Replacing a tape changes nothing else. -/
theorem onlyTape_setTape (s : Mach n) (d : TapeId) (v : Tape) : OnlyTape s (s.setTape d v) d :=
  ⟨fun _ _ => Mach.reg_setTape .., by simp [KeepsMemory], fun _ he => Mach.tape_setTape_ne _ _ he,
    Mach.tty_setTape .., Mach.status_setTape .., Mach.pc_setTape ..⟩

theorem deviceOf_of_eq_id {v : Word n} {d : Device} (h : v = d.id) : deviceOf v = some d :=
  h ▸ deviceOf_id d

/-! ### FOPEN_READ, FOPEN_WRITE, FCLOSE, REWIND, FSEEK (R439 to R443) -/

section positioning

variable {s : Mach n} {d : TapeId}

theorem onTape_tape {v : Word n} (h : v = (Device.tape d).id) (f : Tape → Tape) :
    onTape s v f = .next (s.setTape d (f (s.tape d))) :=
  onTape_next.mpr (.inr (.inr ⟨d, deviceOf_of_eq_id h, rfl⟩))

theorem exec_fopenRead_tape (h : s.reg 0 = (Device.tape d).id) : exec .fopenRead s.toState =
    .next (s.setTape d { s.tape d with mode := .reading, pos := firstNonZero (s.tape d).cells }).toState :=
  lift_next_toState.mpr (onTape_tape h _)

theorem exec_fopenWrite_tape (h : s.reg 0 = (Device.tape d).id) : exec .fopenWrite s.toState =
    .next (s.setTape d { s.tape d with mode := .writing, pos := firstZero (s.tape d).cells }).toState :=
  lift_next_toState.mpr (onTape_tape h _)

theorem exec_fclose_tape (h : s.reg 0 = (Device.tape d).id) :
    exec .fclose s.toState = .next (s.setTape d { s.tape d with mode := .closed }).toState :=
  lift_next_toState.mpr (onTape_tape h _)

theorem exec_rewind_tape (h : s.reg 0 = (Device.tape d).id) : exec .rewind s.toState =
    .next (s.setTape d { s.tape d with pos := firstNonZero (s.tape d).cells }).toState :=
  lift_next_toState.mpr (onTape_tape h _)

theorem exec_fseek (s : Mach n) :
    exec .fseek s.toState = (seekTape s (s.reg 0) (sInt (s.reg 1))).lift := by
  rw [sInt_eq_toInt]
  rfl

theorem exec_fseek_tape (h : s.reg 0 = (Device.tape d).id) (hpos : 0 ≤ ((s.tape d).pos : Int) + sInt (s.reg 1)) :
    exec .fseek s.toState =
      .next (s.setTape d { s.tape d with pos := ((s.tape d).pos + sInt (s.reg 1)).toNat }).toState := by
  rw [exec_fseek, lift_next_toState]
  exact seekTape_next.mpr (.inr (.inr ⟨d, deviceOf_of_eq_id h, .inr ⟨hpos, rfl⟩⟩))

theorem raisesFault_fseek_tape (h : s.reg 0 = (Device.tape d).id)
    (hneg : ((s.tape d).pos : Int) + sInt (s.reg 1) < 0) :
    RaisesFault .fseek s (.seekOutOfRange (s.reg 0).toNat ((s.tape d).pos + sInt (s.reg 1))) :=
  raisesFault_of_takeFault (exec_fseek s)
    (seekTape_next.mpr (.inr (.inr ⟨d, deviceOf_of_eq_id h, .inl ⟨hneg, rfl⟩⟩)))

/-- The calls that move or close a tape treat the tty and a value that is no ID alike (R434, R437). -/
theorem exec_positioning (s : Mach n) {i : Instr}
    (hi : i ∈ [Instr.fopenRead, .fopenWrite, .fclose, .rewind, .fseek]) :
    ∃ r : MachResult n, exec i s.toState = r.lift ∧ (deviceOf (s.reg 0) = some .tty → r = .next s) ∧
      (deviceOf (s.reg 0) = none → r = .next (s.takeFault (s.pc - 4) (.invalidDevice (s.reg 0).toNat))) := by
  simp only [List.mem_cons, List.not_mem_nil, or_false] at hi
  rcases hi with rfl | rfl | rfl | rfl | rfl
  case inr.inr.inr.inr =>
    exact ⟨_, exec_fseek s, fun h => seekTape_next.mpr (.inr (.inl ⟨h, rfl⟩)),
      fun h => seekTape_next.mpr (.inl ⟨h, rfl⟩)⟩
  all_goals
    exact ⟨_, rfl, fun h => onTape_next.mpr (.inr (.inl ⟨h, rfl⟩)), fun h => onTape_next.mpr (.inl ⟨h, rfl⟩)⟩

end positioning

/-- Settles O53: on a tape each call answers the machine given above, with the position that `firstNonZero` or
`firstZero` finds; the other devices are `exec_positioning`. -/
theorem tapePositioning : Obligations.TapePositioning := by
  refine fun n s => ⟨fun d h => ⟨?fopenRead, ?fopenWrite, ?fclose, ?rewind, fun hpos => ?fseek,
    raisesFault_fseek_tape h⟩, fun h i hi => ?tty, fun h i hi => ?invalid⟩
  case fopenRead =>
    exact ⟨_, exec_fopenRead_tape h, by simp, by simp, by simpa using isFirstNonZero_firstNonZero _,
      onlyTape_setTape ..⟩
  case fopenWrite =>
    exact ⟨_, exec_fopenWrite_tape h, by simp, by simp, by simpa using isFirstZero_firstZero _, onlyTape_setTape ..⟩
  case fclose => exact ⟨_, exec_fclose_tape h, by simp, by simp, by simp, onlyTape_setTape ..⟩
  case rewind =>
    exact ⟨_, exec_rewind_tape h, by simp, by simp, by simpa using isFirstNonZero_firstNonZero _,
      onlyTape_setTape ..⟩
  case fseek => exact ⟨_, exec_fseek_tape h hpos, by simp, by simp, by simpa using hpos, onlyTape_setTape ..⟩
  case tty =>
    obtain ⟨r, hr, htty, -⟩ := exec_positioning s hi
    rw [hr, htty (deviceOf_of_eq_id h)]
    rfl
  case invalid =>
    obtain ⟨r, hr, -, hnone⟩ := exec_positioning s hi
    exact raisesFault_of_takeFault hr (hnone (deviceOf_eq_none.mpr h))

/-! ### FGETC (R444) -/

section fgetc

variable {s : Mach n} {d : TapeId}

theorem exec_fgetc (s : Mach n) : exec .fgetc s.toState = (getByte s (s.reg 1) 0).lift := (rfl)

/-- A byte extended with zeros has its value at every width. -/
theorem uInt_zeroExtend (b : Byte) : uInt (b.zeroExtend n.bits : Word n) = b.toNat := by
  have hb : b.toNat < 2 ^ n.bits := lt_of_lt_of_le (lt_trans b.isLt (by decide)) n.two_pow_ge
  rw [uInt_eq, BitVec.zeroExtend, BitVec.toNat_setWidth, Nat.mod_eq_of_lt hb]

theorem exec_fgetc_tape {b : Byte} (h : s.reg 1 = (Device.tape d).id) (hmode : (s.tape d).mode = .reading)
    (hb : (s.tape d).cells[(s.tape d).pos]? = some b) : exec .fgetc s.toState =
      .next ((s.setTape d { s.tape d with pos := (s.tape d).pos + 1 }).setReg 0 (b.zeroExtend n.bits)).toState :=
  lift_next_toState.mpr
    (getByte_next.mpr (.inr (.inr (.inr ⟨d, deviceOf_of_eq_id h, .inr (.inr ⟨b, hmode, hb, rfl⟩)⟩))))

theorem exec_fgetc_tty {b : Byte} {rest : List Byte} (h : s.reg 1 = Device.tty.id) (hin : s.tty.input = b :: rest) :
    exec .fgetc s.toState =
      .next ((s.setTty { s.tty with input := rest }).setReg 0 (b.zeroExtend n.bits)).toState :=
  lift_next_toState.mpr (getByte_next.mpr (.inr (.inr (.inl ⟨b, rest, deviceOf_of_eq_id h, hin, rfl⟩))))

/-- Past the end of a tape FGETC writes the register alone. -/
theorem exec_fgetc_tape_eof (h : s.reg 1 = (Device.tape d).id) (hmode : (s.tape d).mode = .reading)
    (hend : (s.tape d).cells.length ≤ (s.tape d).pos) :
    exec .fgetc s.toState = (writeReg s 0 Config.fgetcEof).lift := by
  have hnone : (s.tape d).cells[(s.tape d).pos]? = none := List.getElem?_eq_none hend
  rw [exec_fgetc, getByte_next.mpr (.inr (.inr (.inr ⟨d, deviceOf_of_eq_id h, .inr (.inl ⟨hmode, hnone, rfl⟩)⟩)))]
  rfl

/-- With no input left FGETC writes the register alone. -/
theorem exec_fgetc_tty_eof (h : s.reg 1 = Device.tty.id) (hin : s.tty.input = []) :
    exec .fgetc s.toState = (writeReg s 0 Config.fgetcEof).lift := by
  rw [exec_fgetc, getByte_next.mpr (.inr (.inl ⟨deviceOf_of_eq_id h, hin, rfl⟩))]
  rfl

end fgetc

/-- Settles O54: each case of the device and of what is left to read has its answer above. -/
theorem fgetcReads : Obligations.FgetcReads := by
  refine fun n s => ⟨fun d h => ⟨fun b hmode hb => ?byte,
    fun hmode hend => setsReg_of (exec_fgetc_tape_eof h hmode hend), fun hmode => ?closed⟩,
    fun h => ⟨fun b rest hin => ?key, fun hin => setsReg_of (exec_fgetc_tty_eof h hin)⟩,
    fun h => ?invalid⟩
  case byte =>
    refine ⟨_, exec_fgetc_tape h hmode hb, by rw [Mach.reg_setReg_self, uInt_zeroExtend], by simp,
      fun e he => by simp [he], by simp, fun r hr => ?_, by simp [KeepsMemory], by simp, by simp⟩
    have hr0 : r ≠ 0 := by simpa using hr
    rw [Mach.reg_setReg_ne _ _ hr0, Mach.reg_setTape]
  case closed =>
    exact raisesFault_of_takeFault (exec_fgetc s)
      (getByte_next.mpr (.inr (.inr (.inr ⟨d, deviceOf_of_eq_id h, .inl ⟨hmode, rfl⟩⟩))))
  case key =>
    refine ⟨_, exec_fgetc_tty h hin, by rw [Mach.reg_setReg_self, uInt_zeroExtend], by simp, by simp, by simp,
      fun r hr => ?_, by simp [KeepsMemory], by simp, by simp⟩
    have hr0 : r ≠ 0 := by simpa using hr
    rw [Mach.reg_setReg_ne _ _ hr0, Mach.reg_setTty]
  case invalid =>
    exact raisesFault_of_takeFault (exec_fgetc s) (getByte_next.mpr (.inl ⟨deviceOf_eq_none.mpr h, rfl⟩))

/-! ### FPUTC (R445) -/

section fputc

variable {s : Mach n} {d : TapeId}

theorem exec_fputc (s : Mach n) :
    exec .fputc s.toState = (putByte s (s.reg 1) (BitVec.ofNat 8 (s.reg 0).toNat)).lift := by
  rw [BitVec.ofNat_toNat]
  rfl

theorem exec_fputc_tape (h : s.reg 1 = (Device.tape d).id) (hmode : (s.tape d).mode = .writing) :
    exec .fputc s.toState = .next (s.setTape d { s.tape d with
      cells := putCell (s.tape d).cells (s.tape d).pos (BitVec.ofNat 8 (s.reg 0).toNat)
      pos := (s.tape d).pos + 1 }).toState := by
  rw [exec_fputc, lift_next_toState]
  exact putByte_next.mpr (.inr (.inr ⟨d, deviceOf_of_eq_id h, .inr ⟨hmode, rfl⟩⟩))

theorem exec_fputc_tty (h : s.reg 1 = Device.tty.id) : exec .fputc s.toState =
    .next (s.setTty { s.tty with output := s.tty.output ++ [BitVec.ofNat 8 (s.reg 0).toNat] }).toState := by
  rw [exec_fputc, lift_next_toState]
  exact putByte_next.mpr (.inr (.inl ⟨deviceOf_of_eq_id h, rfl⟩))

end fputc

/-- Settles O55: on a tape the new cells are those of `putCell`, whose length and entries are given above. -/
theorem fputcWrites : Obligations.FputcWrites := by
  refine fun n s => ⟨fun d h => ⟨fun hmode => ?cell, fun hmode => ?closed⟩, fun h => ?tty, fun h => ?invalid⟩
  case cell =>
    refine ⟨_, exec_fputc_tape h hmode, by simp [length_putCell], fun j hj => ?_, by simp, by simpa using hmode,
      onlyTape_setTape ..⟩
    rw [Mach.tape_setTape_self] at hj ⊢
    exact getElem?_putCell_of_lt hj
  case closed =>
    exact raisesFault_of_takeFault (exec_fputc s)
      (putByte_next.mpr (.inr (.inr ⟨d, deviceOf_of_eq_id h, .inl ⟨hmode, rfl⟩⟩)))
  case tty =>
    exact ⟨_, exec_fputc_tty h, rfl, rfl, rfl, fun _ _ => rfl, ⟨rfl, fun _ => rfl⟩, rfl, rfl⟩
  case invalid =>
    exact raisesFault_of_takeFault (exec_fputc s) (putByte_next.mpr (.inl ⟨deviceOf_eq_none.mpr h, rfl⟩))

/-! ### One byte to a tape and back (R436, 44_2op_integer.md R286) -/

section copy

variable {s : Mach n} {d : TapeId}

theorem exec_copy (s : Mach n) (a b : Reg) :
    exec (.copy a b) s.toState = .next (s.setReg a (s.reg b)).toState := (rfl)

/-- FOPEN_WRITE, COPY and FPUTC make a blank tape hold the byte alone. -/
theorem exists_write_blank (p : Reg) (hblank : (s.tape d).cells = []) (h0 : s.reg 0 = (Device.tape d).id)
    (h1 : s.reg 1 = (Device.tape d).id) :
    ∃ s1 s2 s3 : Mach n, exec .fopenWrite s.toState = .next s1.toState ∧
      exec (.copy 0 p) s1.toState = .next s2.toState ∧ exec .fputc s2.toState = .next s3.toState ∧
      (s3.tape d).cells = [BitVec.ofNat 8 (s.reg p).toNat] ∧ s3.reg 1 = (Device.tape d).id := by
  refine ⟨_, _, _, exec_fopenWrite_tape h0, exec_copy .., exec_fputc_tape (d := d) (by simp [h1]) (by simp), ?_,
    by simp [h1]⟩
  simp [hblank, firstZero, putCell]

/-- COPY, FCLOSE, FOPEN_READ and FGETC read back the one byte of a tape when it is not 0x00, and leave it there. -/
theorem exists_read_back {b : Byte} (hb : b ≠ 0) (hcells : (s.tape d).cells = [b])
    (h1 : s.reg 1 = (Device.tape d).id) :
    ∃ s1 s2 s3 s4 : Mach n, exec (.copy 0 1) s.toState = .next s1.toState ∧
      exec .fclose s1.toState = .next s2.toState ∧ exec .fopenRead s2.toState = .next s3.toState ∧
      exec .fgetc s3.toState = .next s4.toState ∧ uInt (s4.reg 0) = b.toNat ∧ (s4.tape d).cells = [b] := by
  refine ⟨_, _, _, _, exec_copy .., exec_fclose_tape (d := d) (by simp [h1]),
    exec_fopenRead_tape (d := d) (by simp [h1]),
    exec_fgetc_tape (d := d) (b := b) (by simp [h1]) (by simp) ?_, ?_, by simp [hcells]⟩
  · simp [hcells, firstNonZero_cons_ne hb]
  · rw [Mach.reg_setReg_self, uInt_zeroExtend]

theorem stripZeros_singleton {b : Byte} (hb : b ≠ 0) : stripZeros [b] = [b] := by
  have hdrop : dropZeros [b] = [b] := if_neg hb
  rw [stripZeros, hdrop, List.reverse_singleton, hdrop, List.reverse_singleton]

end copy

/-- Settles O58: the write leaves the byte alone on the tape, which is what the read needs. -/
theorem tapeCopyOfOneByte : Obligations.TapeCopyOfOneByte := by
  intro n s d p hblank h0 h1 hbyte
  have hvalue : (BitVec.ofNat 8 (s.reg p).toNat).toNat = (s.reg p).toNat % 256 := BitVec.toNat_ofNat ..
  have hb : BitVec.ofNat 8 (s.reg p).toNat ≠ 0 := fun h => hbyte (hvalue.symm.trans (congrArg BitVec.toNat h))
  obtain ⟨s1, s2, s3, he1, he2, he3, hcells, hid⟩ := exists_write_blank p hblank h0 h1
  obtain ⟨s4, s5, s6, s7, he4, he5, he6, he7, hread, hcells'⟩ := exists_read_back hb hcells hid
  refine ⟨s1, s2, s3, s4, s5, s6, s7, he1, he2, he3, he4, he5, he6, he7, ?_, ?_⟩
  · rw [hread, hvalue]
    rfl
  · rw [hcells', stripZeros_singleton hb]

end Sys2Proof.Machine
end
